-- ==== Sys2Proof/Word.lean ====
section
/-! DEFINITION. The widths the spec names: a byte of system memory, a 32-bit word, a duration field. -/

namespace Sys2Proof

/-- One byte of the pixel buffer (spec/20_memory.md R63). -/
abbrev Byte := BitVec 8

/-- A 32-bit word: a pulse entry (R80) or a word of a transaction (R87). -/
abbrev Word := BitVec 32

/-- A duration field of a pulse entry, in base units, 0..32767 (R80, R81). -/
abbrev Dur := BitVec 15

/-- A line level: `true` is high (R80). -/
abbrev Level := Bool

end Sys2Proof
end

