-- ==== Sys2Proof/Config.lean ====
section
/-! DEFINITION. Configuration: the constants of the block, the parameters of a realisation, the choices the
environment makes, and the free values (spec/00_scope.md R5 to R10, spec/10_state.md R43). -/

namespace Sys2Proof

namespace Config

/-- T_LATCH_MIN in nanoseconds: 50 microseconds (R8). -/
abbrev tLatchMinNs : Nat := 50000

/-- DIV's recommended value (R6, decision D7). -/
abbrev divDefault : BitVec 8 := 8#8

end Config

/-- The parameters a realisation fixes and no step changes (R5 to R10, R43, R233; U19 to U23). The values after `:=`
are the spec's defaults; those of `kHosts`, `memSize` and `waitTimeout`, which the spec leaves OPEN, are this model's
(log entries 5, 3 and 4). -/
structure Params where
  /-- T0H (R5). -/
  t0h : Dur := 4#15
  /-- T0L (R5). -/
  t0l : Dur := 7#15
  /-- T1H (R5). -/
  t1h : Dur := 8#15
  /-- T1L (R5). -/
  t1l : Dur := 6#15
  /-- N_MEM, the entries of the pulse memory (R7). -/
  nMem : Nat := 64
  /-- LATCH_LEN, the entries of the latch block (R8). -/
  latchLen : Nat := 64
  /-- LATCH_D (R8). -/
  latchD : Dur := 4#15
  /-- IDLE_LEVEL, the line level while no entry plays: 0, low (R10; log entry 16). -/
  idleLevel : Level := false
  /-- K_HOSTS, the number of host agents (R10). -/
  kHosts : Nat := 4
  /-- MEM_SIZE, the bytes of system memory (R9). -/
  memSize : Nat := 2 ^ 32
  /-- ADDR_W, the width of a system-memory address (R9). -/
  addrW : Nat := 32
  /-- WAIT_TIMEOUT_UNITS, in base units of playback (R10). -/
  waitTimeout : Nat := 2 ^ 32 - 1
  /-- F_CLK, the input clock in hertz (R6). -/
  fClk : Nat := 80000000
deriving DecidableEq, Repr

/-- H, the entries of one ping-pong half (R7). -/
def Params.half (p : Params) : Nat := p.nMem / 2

/-- CAP, the buffer bytes that fit one half (R7, R141). -/
def Params.cap (p : Params) : Nat := p.half / 8

/-- R7: "a model must keep N_MEM a multiple of 16 … and N_MEM ≥ 16". R8: LATCH_LEN is equal to N_MEM. -/
def Params.geometryWf (p : Params) : Bool :=
  decide (p.nMem % 16 = 0) && decide (16 ≤ p.nMem) && decide (p.latchLen = p.nMem)

/-- R5's "short/long" relations and ranges, and R8's range of LATCH_D. -/
def Params.timingWf (p : Params) : Bool :=
  p.t0h != 0#15 && p.t0l != 0#15 && p.t1h != 0#15 && p.t1l != 0#15 && p.latchD != 0#15 &&
  decide (p.t0h < p.t1h) && decide (p.t1l < p.t0l)

/-- R10: K_HOSTS ≥ 1. R6: F_CLK is a frequency. DESIGN CHOICE (log entry 24): 1 ≤ ADDR_W ≤ 32, as SHOW's 32-bit ARG0
carries BUF_BASE (R89), and MEM_SIZE ≤ 2^ADDR_W, so that every byte of system memory has an address. The spec gives
neither bound. -/
def Params.platformWf (p : Params) : Bool :=
  decide (0 < p.kHosts) && decide (0 < p.fClk) &&
  decide (0 < p.addrW) && decide (p.addrW ≤ 32) && decide (p.memSize ≤ 2 ^ p.addrW)

/-- The constraints on the parameters: the spec's, and the model's own bounds on ADDR_W and MEM_SIZE (DESIGN CHOICE, log
entry 24). -/
def Params.wf (p : Params) : Bool := p.geometryWf && p.timingWf && p.platformWf

/-- R8's constraint 2 × LATCH_LEN × LATCH_D × T_UNIT ≥ T_LATCH_MIN with T_UNIT = DIV / F_CLK (R6), multiplied out. -/
def Params.latchLongEnough (p : Params) (div : BitVec 8) : Bool :=
  decide (Config.tLatchMinNs * p.fClk ≤ 2 * p.latchLen * p.latchD.toNat * div.toNat * 1000000000)

/-- Who stands on the transaction port (R88, R101). -/
inductive Issuer where
  /-- Host agent `h` (R100). -/
  | host (h : Nat)
  /-- The transmit controller CTL (R2). -/
  | ctl
  /-- The refill engine RFL, writing pulse memory (R114). -/
  | rfl
  /-- The threshold event, which RFL's one step serves (R140, R142); no transaction. -/
  | thr
deriving DecidableEq, Repr, Inhabited

/-- One choice of the environment: which agent's step is taken next, and what a host does in it (R13, R100, R230).
A choice whose step is not enabled is a hold. -/
inductive Choice where
  /-- A transaction of these words is issued; `installOk` is the draw INSTALL_OK a CONFIGURE takes (R102). -/
  | issue (who : Issuer) (words : List Word) (installOk : Bool)
  /-- Host `h` writes one byte of system memory (R12, R42). -/
  | memWrite (h : Nat) (addr : Nat) (b : Byte)
  /-- CTL accepts the waiting SHOW of host `h` (R103). -/
  | accept (h : Nat)
  /-- CTL completes the SHOW in flight (R105). -/
  | complete
  /-- RFL serves the threshold event (R142). -/
  | refill
  /-- PB plays the latched entry (R162). -/
  | play
  /-- The reset event (R230). -/
  | reset
deriving DecidableEq, Repr, Inhabited

/-- The choices the spec's step relation has: all but an internal operation issued on its own. CTL issues its
operations only inside the steps of R103 and R105, RFL only inside that of R142 (spec/40_control.md section 5). -/
def Choice.own : Choice → Bool
  | .issue (.host _) _ _ => true
  | .issue _ _ _ => false
  | _ => true

namespace Config

/-- FREE VALUE. The environment's choice where `State.agenda` has none left (R13, R77; log entry 1). -/
opaque freeChoice : Nat → Choice

/-- FREE VALUE. Entry `i` of the pulse memory after the `n`-th reset: "any value per entry" (R39, R44, U4; log
entry 2). -/
opaque pmemAtReset : Nat → Nat → Word

end Config

end Sys2Proof
end

