-- ==== Sys2Proof/Syntax.lean ====
section
/-! DEFINITION. The instructions: one constructor per row of spec/opcode_table.json, in the table's order. The first
seven are pulse entries (what PB plays), the rest transactions (what an issuer asks for). -/

namespace Sys2Proof

/-- The two encoded languages of spec/30_encoding.md. Which one a word is in is never read from the word. -/
inductive Lang where
  /-- The pulse entry: one 32-bit word (R80). -/
  | entry
  /-- The transaction: a header word and its argument words (R87). -/
  | txn
deriving DecidableEq, Repr

/-- The rows of the opcode table. An operand the spec calls ignored is kept, so that no bit of a word is lost. -/
inductive Instr where
  /-- END0: DUR0 = 0 (R82, R163). LVL0, DUR1 and LVL1 have no effect (R91). -/
  | end0 (lvl0 : Level) (dur1 : Dur) (lvl1 : Level)
  /-- END1: DUR0 ≠ 0 and DUR1 = 0 (R82, R164). LVL1 has no effect (R91). -/
  | end1 (lvl0 : Level) (dur0 : Dur) (lvl1 : Level)
  /-- PAIR: both durations non-zero (R82, R162). -/
  | pair (lvl0 : Level) (dur0 : Dur) (lvl1 : Level) (dur1 : Dur)
  /-- BIT0, the name of PAIR 1,4,0,7 (R83, R94). -/
  | bit0
  /-- BIT1, the name of PAIR 1,8,0,6 (R84, R94). -/
  | bit1
  /-- LATCH, the name of PAIR 0,4,0,4 (R85, R94). -/
  | latch
  /-- TERM, the name of the all-zero END0 (R86, R94). -/
  | term
  /-- CONFIGURE div (R102). -/
  | configure (div : BitVec 8)
  /-- SHOW base, len (R104). -/
  | showFrame (base len : Word)
  /-- STATUS (R107). -/
  | status
  /-- WRITE_FIXED_BLOCK; BLOCK_LEN is the number of entries (R110). -/
  | writeFixedBlock (wait : Bool) (entries : List Word)
  /-- WAIT_DONE timeout (R111). -/
  | waitDone (timeout : Word)
  /-- IRQ_HOOK (R112). -/
  | irqHook
  /-- IRQ_UNHOOK (R113). -/
  | irqUnhook
  /-- MEM_WRITE offset, entry (R114). -/
  | memWrite (offset : BitVec 16) (entry : Word)
  /-- REFILL, the service of the threshold event (R142). -/
  | refill
  /-- Reserved code 0x0 with the header's bits 31..4 (R88, R90). -/
  | reserved0x0 (upper : BitVec 28)
  /-- Reserved code 0x4 (R88, R90). -/
  | reserved0x4 (upper : BitVec 28)
  /-- Reserved code 0x5 (R88, R90). -/
  | reserved0x5 (upper : BitVec 28)
  /-- Reserved code 0x6 (R88, R90). -/
  | reserved0x6 (upper : BitVec 28)
  /-- Reserved code 0x7 (R88, R90). -/
  | reserved0x7 (upper : BitVec 28)
  /-- Reserved code 0x8 (R88, R90). -/
  | reserved0x8 (upper : BitVec 28)
  /-- Reserved code 0xF (R88, R90). -/
  | reserved0xF (upper : BitVec 28)
deriving DecidableEq, Repr

/-- The language an instruction is written in: the table's "format". -/
def Instr.lang : Instr → Lang
  | .end0 _ _ _ => .entry
  | .end1 _ _ _ => .entry
  | .pair _ _ _ _ => .entry
  | .bit0 => .entry
  | .bit1 => .entry
  | .latch => .entry
  | .term => .entry
  | .configure _ => .txn
  | .showFrame _ _ => .txn
  | .status => .txn
  | .writeFixedBlock _ _ => .txn
  | .waitDone _ => .txn
  | .irqHook => .txn
  | .irqUnhook => .txn
  | .memWrite _ _ => .txn
  | .refill => .txn
  | .reserved0x0 _ => .txn
  | .reserved0x4 _ => .txn
  | .reserved0x5 _ => .txn
  | .reserved0x6 _ => .txn
  | .reserved0x7 _ => .txn
  | .reserved0x8 _ => .txn
  | .reserved0xF _ => .txn

end Sys2Proof
end

