-- ==== Sys2Proof/WellFormed.lean ====
section
/-! DEFINITION. Well-formed instructions: the operand values with which a term is the spec's own reading of its words. -/

namespace Sys2Proof

/-- R82's class conditions, R93's rule that a word with a name is printed by its name, and R89's
BLOCK_LEN: at least 1, in 16 bits. Its upper bound N_MEM is a parameter of the machine, which checks it (R90). -/
def Instr.wf : Instr → Bool
  | .end0 lvl0 dur1 lvl1 => lvl0 || lvl1 || dur1 != 0#15
  | .end1 _ dur0 _ => dur0 != 0#15
  | .pair lvl0 dur0 lvl1 dur1 =>
      dur0 != 0#15 && dur1 != 0#15 && (lvl0, dur0, lvl1, dur1) != (true, 4#15, false, 7#15) &&
      (lvl0, dur0, lvl1, dur1) != (true, 8#15, false, 6#15) && (lvl0, dur0, lvl1, dur1) != (false, 4#15, false, 4#15)
  | .bit0 => true
  | .bit1 => true
  | .latch => true
  | .term => true
  | .configure _ => true
  | .showFrame _ _ => true
  | .status => true
  | .writeFixedBlock _ entries => decide (0 < entries.length) && decide (entries.length < 2 ^ 16)
  | .waitDone _ => true
  | .irqHook => true
  | .irqUnhook => true
  | .memWrite _ _ => true
  | .refill => true
  | .reserved0x0 _ => true
  | .reserved0x4 _ => true
  | .reserved0x5 _ => true
  | .reserved0x6 _ => true
  | .reserved0x7 _ => true
  | .reserved0x8 _ => true
  | .reserved0xF _ => true

end Sys2Proof
end

