-- ==== Sys2Proof/Decode.lean ====
section
/-! DEFINITION. Decoding, total on any words, rejecting by name (spec/30_encoding.md R80 to R92), and the encoder
written from the same tables. -/

namespace Sys2Proof

/-! ## Fields -/

/-- DUR0, bits 14..0 of an entry (R80). -/
def entryDur0 (w : Word) : Dur := w.extractLsb' 0 15

/-- LVL0, bit 15 of an entry (R80). -/
def entryLvl0 (w : Word) : Level := w.getLsbD 15

/-- DUR1, bits 30..16 of an entry (R80). -/
def entryDur1 (w : Word) : Dur := w.extractLsb' 16 15

/-- LVL1, bit 31 of an entry (R80). -/
def entryLvl1 (w : Word) : Level := w.getLsbD 31

/-- R81: `w = cat(LVL1, DUR1, LVL0, DUR0)` = LVL1 × 2^31 + DUR1 × 2^16 + LVL0 × 2^15 + DUR0. -/
def mkEntry (lvl0 : Level) (dur0 : Dur) (lvl1 : Level) (dur1 : Dur) : Word :=
  BitVec.ofNat 32 (lvl1.toNat * 2 ^ 31 + dur1.toNat * 2 ^ 16 + lvl0.toNat * 2 ^ 15 + dur0.toNat)

/-- OP, bits 3..0 of a header (R87). -/
def hdrOp (w : Word) : BitVec 4 := w.extractLsb' 0 4

/-- Bits 31..4 of a header, reserved (R87). -/
def hdrUpper (w : Word) : BitVec 28 := w.extractLsb' 4 28

/-- A header word of its two fields (R87). -/
def mkHdr (upper : BitVec 28) (op : BitVec 4) : Word := BitVec.ofNat 32 (upper.toNat * 2 ^ 4 + op.toNat)

/-- CONFIGURE's ARG0: DIV in bits 7..0, the rest 0 (R89). -/
def mkDivArg (div : BitVec 8) : Word := BitVec.ofNat 32 div.toNat

/-- WRITE_FIXED_BLOCK's ARG0: BLOCK_LEN in bits 15..0, WAIT in bit 16, the rest 0 (R89). -/
def mkBlockArg (wait : Bool) (blockLen : BitVec 16) : Word :=
  BitVec.ofNat 32 (wait.toNat * 2 ^ 16 + blockLen.toNat)

/-- MEM_WRITE's ARG0: OFFSET in bits 15..0, the rest 0 (R89). -/
def mkOffsetArg (offset : BitVec 16) : Word := BitVec.ofNat 32 offset.toNat

/-! ## Named words -/

/-- The word of BIT0 (R83). -/
def wordBit0 : Word := 0x00078004#32

/-- The word of BIT1 (R84). -/
def wordBit1 : Word := 0x00068008#32

/-- The word of LATCH with LATCH_D = 4 (R85). -/
def wordLatch : Word := 0x00040004#32

/-- The word of TERM (R86). -/
def wordTerm : Word := 0x00000000#32

/-! ## Decoding -/

/-- R82: the class of an entry, tested in the rule's order; a word with a name is read as its name (R93). -/
def decodeEntry (w : Word) : Instr :=
  if w = wordTerm then .term
  else if w = wordBit0 then .bit0
  else if w = wordBit1 then .bit1
  else if w = wordLatch then .latch
  else if entryDur0 w = 0#15 then .end0 (entryLvl0 w) (entryDur1 w) (entryLvl1 w)
  else if entryDur1 w = 0#15 then .end1 (entryLvl0 w) (entryDur0 w) (entryLvl1 w)
  else .pair (entryLvl0 w) (entryDur0 w) (entryLvl1 w) (entryDur1 w)

/-- Why a list of words is no transaction. -/
inductive Reject where
  /-- There is no header word. -/
  | noHeader
  /-- A reserved bit of the header is set (R87, R90). -/
  | headerReserved
  /-- A reserved bit of an argument word is set (R89, R90). -/
  | argReserved
  /-- Fewer words than the operation takes (R89, R92). -/
  | truncated
deriving DecidableEq, Repr

/-- The argument words of R89 for each operation that is not reserved, the header's reserved bits being 0. -/
def decodeArgs (op : BitVec 4) (args : List Word) : Except Reject (Instr × List Word) :=
  if op = 0x1#4 then
    match args with
    | a :: rest =>
      if a.extractLsb' 8 24 = 0#24 then .ok (.configure (a.extractLsb' 0 8), rest) else .error .argReserved
    | [] => .error .truncated
  else if op = 0x2#4 then
    match args with
    | base :: len :: rest => .ok (.showFrame base len, rest)
    | _ => .error .truncated
  else if op = 0x3#4 then .ok (.status, args)
  else if op = 0x9#4 then
    match args with
    | a :: rest =>
      if a.extractLsb' 17 15 = 0#15 then
        if (a.extractLsb' 0 16).toNat ≤ rest.length then
          .ok (.writeFixedBlock (a.getLsbD 16) (rest.take (a.extractLsb' 0 16).toNat),
            rest.drop (a.extractLsb' 0 16).toNat)
        else .error .truncated
      else .error .argReserved
    | [] => .error .truncated
  else if op = 0xA#4 then
    match args with
    | t :: rest => .ok (.waitDone t, rest)
    | [] => .error .truncated
  else if op = 0xB#4 then .ok (.irqHook, args)
  else if op = 0xC#4 then .ok (.irqUnhook, args)
  else if op = 0xD#4 then
    match args with
    | a :: w :: rest =>
      if a.extractLsb' 16 16 = 0#16 then .ok (.memWrite (a.extractLsb' 0 16) w, rest) else .error .argReserved
    | _ => .error .truncated
  else .ok (.refill, args)

/-- R92: read the header, take the length from OP (and BLOCK_LEN), and read that many words; the rest is handed
back. A reserved code is read whatever the header's other bits are (the table's mask 0x0000000F). -/
def decodeTxn : List Word → Except Reject (Instr × List Word)
  | [] => .error .noHeader
  | hdr :: args =>
    if hdrOp hdr = 0x0#4 then .ok (.reserved0x0 (hdrUpper hdr), args)
    else if hdrOp hdr = 0x4#4 then .ok (.reserved0x4 (hdrUpper hdr), args)
    else if hdrOp hdr = 0x5#4 then .ok (.reserved0x5 (hdrUpper hdr), args)
    else if hdrOp hdr = 0x6#4 then .ok (.reserved0x6 (hdrUpper hdr), args)
    else if hdrOp hdr = 0x7#4 then .ok (.reserved0x7 (hdrUpper hdr), args)
    else if hdrOp hdr = 0x8#4 then .ok (.reserved0x8 (hdrUpper hdr), args)
    else if hdrOp hdr = 0xF#4 then .ok (.reserved0xF (hdrUpper hdr), args)
    else if hdrUpper hdr = 0#28 then decodeArgs (hdrOp hdr) args
    else .error .headerReserved

/-- The decoder of either language. -/
def decode : Lang → List Word → Except Reject (Instr × List Word)
  | .entry, w :: rest => .ok (decodeEntry w, rest)
  | .entry, [] => .error .noHeader
  | .txn, ws => decodeTxn ws

/-! ## Encoding -/

/-- The words of an instruction (R80 to R89). -/
def encode : Instr → List Word
  | .end0 lvl0 dur1 lvl1 => [mkEntry lvl0 0#15 lvl1 dur1]
  | .end1 lvl0 dur0 lvl1 => [mkEntry lvl0 dur0 lvl1 0#15]
  | .pair lvl0 dur0 lvl1 dur1 => [mkEntry lvl0 dur0 lvl1 dur1]
  | .bit0 => [wordBit0]
  | .bit1 => [wordBit1]
  | .latch => [wordLatch]
  | .term => [wordTerm]
  | .configure div => [mkHdr 0#28 0x1#4, mkDivArg div]
  | .showFrame base len => [mkHdr 0#28 0x2#4, base, len]
  | .status => [mkHdr 0#28 0x3#4]
  | .writeFixedBlock wait entries =>
      mkHdr 0#28 0x9#4 :: mkBlockArg wait (BitVec.ofNat 16 entries.length) :: entries
  | .waitDone timeout => [mkHdr 0#28 0xA#4, timeout]
  | .irqHook => [mkHdr 0#28 0xB#4]
  | .irqUnhook => [mkHdr 0#28 0xC#4]
  | .memWrite offset entry => [mkHdr 0#28 0xD#4, mkOffsetArg offset, entry]
  | .refill => [mkHdr 0#28 0xE#4]
  | .reserved0x0 upper => [mkHdr upper 0x0#4]
  | .reserved0x4 upper => [mkHdr upper 0x4#4]
  | .reserved0x5 upper => [mkHdr upper 0x5#4]
  | .reserved0x6 upper => [mkHdr upper 0x6#4]
  | .reserved0x7 upper => [mkHdr upper 0x7#4]
  | .reserved0x8 upper => [mkHdr upper 0x8#4]
  | .reserved0xF upper => [mkHdr upper 0xF#4]

/-! ## The table's numbering of an instruction's bits -/

/-- The words of an instruction whose bits are `w`: bits 31..0 first, then two more words (the longest instruction
whose operand words can all be 0 has three). -/
def tableWords (w : Nat) : List Word :=
  [BitVec.ofNat 32 w, BitVec.ofNat 32 (w / 2 ^ 32), BitVec.ofNat 32 (w / 2 ^ 64)]

/-- Which language a table word is in (log entry 14). The table's words do not say: a row of fewer than 16 bits is
one of the reserved headers, a non-zero word below 16 is a header, every other word is an entry. -/
def tableLang (nbits w : Nat) : Lang :=
  if nbits < 16 then .txn
  else if 0 < w % 2 ^ 32 ∧ w % 2 ^ 32 < 16 then .txn
  else .entry

/-- The instruction the decoder reads from an instruction whose bits are `w`. -/
def decodeTableWord (nbits w : Nat) : Option Instr :=
  match decode (tableLang nbits w) (tableWords w) with
  | .ok (i, _) => some i
  | .error _ => none

end Sys2Proof
end

