-- ==== Sys2Proof/Machine/State.lean ====
section
/-! DEFINITION. The state of the machine (spec/10_state.md), its reasons to stop, and the state after reset. -/

namespace Sys2Proof.Machine

/-- A segment of the output: a level for a number of base units (R40, R169). -/
structure Segment where
  level : Level
  units : Nat
deriving DecidableEq, Repr

/-- LOCK (R34). -/
inductive Lock where
  | free
  | held (h : Nat)
deriving DecidableEq, Repr

/-- CTL_STATE (R35). -/
inductive CtlState where
  | idle
  | waiting
deriving DecidableEq, Repr

/-- HSTATE of one host (R41). -/
inductive HostState where
  | idle
  | showReq (base len : Word)
  | showActive
deriving DecidableEq, Repr

/-- System memory: cells by rising address, none equal to what an unlisted address reads as (R42, log entry 6). -/
abbrev Memory := List Host.Cell

/-- The pulse memory (R39): N_MEM entries, the first at index 0. -/
abbrev PMem := List Word

/-- Everything the spec gives the machine (R20), the parameters (R43) and the model's own fields. -/
structure State where
  /-- The parameters; no step writes them (R43, log entry 16). -/
  par : Params
  /-- POS (R22). -/
  pos : Word
  /-- LEN (R22). -/
  len : Word
  /-- TXOFF, an index of PMEM (R22). -/
  txoff : Nat
  /-- RP, an index of PMEM (R24). -/
  rp : Nat
  /-- CUR (R25). -/
  cur : Word
  /-- PB_RUN (R26). -/
  pbRun : Bool
  /-- ELAPSED (R27). -/
  elapsed : Nat
  /-- DOUT (R28). -/
  dout : Level
  /-- THR_PENDING (R29). -/
  thrPending : Bool
  /-- DONE (R30). -/
  done : Bool
  /-- RFL_EN (R31). -/
  rflEn : Bool
  /-- CONF.DIV (R32). -/
  div : BitVec 8
  /-- CONF.CFG_VALID (R32). -/
  cfgValid : Bool
  /-- BUF_BASE (R33), in 32 bits: ADDR_W is at most 32 (log entry 24). -/
  bufBase : Word
  /-- BUF_LEN (R33). -/
  bufLen : Word
  /-- LOCK (R34). -/
  lock : Lock
  /-- CTL_STATE (R35). -/
  ctl : CtlState
  /-- FAULTED (R36). -/
  faulted : Bool
  /-- FAULT_CODE (R36). -/
  faultCode : BitVec 4
  /-- FAULT_INFO (R36). -/
  faultInfo : Word
  /-- REFUSED (R37). -/
  refused : Bool
  /-- PMEM (R39). -/
  pmem : PMem
  /-- TRACE, oldest segment first (R40). -/
  trace : List Segment
  /-- HSTATE(0), HSTATE(1), …, one for each of the K_HOSTS hosts (R41, R10). -/
  hstate : List HostState
  /-- SYS, outside the block (R42). -/
  sys : Memory
  /-- The model's own: the environment's choices, the next one first (R13, log entry 1). -/
  agenda : List Choice
  /-- The model's own: how many free values have been drawn (log entries 1 and 2). -/
  draws : Nat
  /-- The model's own: who stands on the transaction port in the step being taken (R101, log entry 11). -/
  issuer : Issuer
  /-- The model's own: the draw INSTALL_OK that came with the transaction (R10, R102, log entry 11). -/
  installOk : Bool
  /-- The model's own: the last word a STATUS returned, and to which host (R107, log entry 10). -/
  reply : Option (Nat × Word)
deriving DecidableEq, Repr

/-- Why the machine stops. The spec's faults are no stops: they are taken (R206). -/
inductive Fault where
  /-- Raised by REFILL and by a host's memory write where the address is not below MEM_SIZE: no such byte of system
  memory exists (R60, R70). Safe: no claim is provable of such a run (log entry 7). -/
  | noSuchAddress (addr : Nat)
deriving DecidableEq, Repr

/-- Why an instruction has no meaning. The spec's refusals are no stops: they set REFUSED (R14, R37). -/
inductive Refusal where
  /-- Raised by `exec`'s arms of instructions without a meaning; there is none. Safe. -/
  | notModelled (mnemonic : String)
deriving DecidableEq, Repr

/-- The pulse memory after the `n`-th reset: every entry a free value (R39, R44, U4; log entry 2). -/
def freshPmem (nMem n : Nat) : PMem := (List.range nMem).map (Config.pmemAtReset n)

/-- The state after power-on or a reset event (R44, R230) of a machine with parameters `par`; the platform's system memory
and the environment's agenda are not the block's. -/
def State.powerOn (par : Params) (sys : Memory) (agenda : List Choice) (draws : Nat) : State where
  par := par
  pos := 0#32
  len := 0#32
  txoff := 0
  rp := 0
  cur := 0#32
  pbRun := false
  elapsed := 0
  dout := par.idleLevel
  thrPending := false
  done := false
  rflEn := false
  div := 0#8
  cfgValid := false
  bufBase := 0#32
  bufLen := 0#32
  lock := .free
  ctl := .idle
  faulted := false
  faultCode := 0#4
  faultInfo := 0#32
  refused := false
  pmem := freshPmem par.nMem draws
  trace := []
  hstate := List.replicate par.kHosts .idle
  sys := sys
  agenda := agenda
  draws := draws + 1
  issuer := .host 0
  installOk := true
  reply := none

/-- The machine right after its first reset, with the default parameters (log entries 3, 4 and 5), nothing in system
memory (log entry 6) and nothing on the agenda. -/
def State.reset : State := State.powerOn {} [] [] 0

end Sys2Proof.Machine
end

