-- ==== Sys2Proof/Machine/Ops.lean ====
section
/-! DEFINITION. The shared operations: system memory, pulse memory, host states, fault entry and what leaves it,
refusal, and the gate every transaction passes. -/

namespace Sys2Proof.Machine

/-! ## System memory (R42, R60, R63) -/

/-- What a byte nothing has written reads as (DESIGN CHOICE, log entry 6). -/
def Memory.unlisted : Byte := 0#8

/-- The byte at an address. -/
def Memory.read : Memory → Nat → Byte
  | [], _ => Memory.unlisted
  | (k, v) :: rest, a => if k = a then v else Memory.read rest a

/-- The memory with one byte written, in canonical form. -/
def Memory.write : Memory → Nat → Byte → Memory
  | [], a, b => if b = Memory.unlisted then [] else [(a, b)]
  | (k, v) :: rest, a, b =>
    if k < a then (k, v) :: Memory.write rest a b
    else if k = a then (if b = Memory.unlisted then rest else (a, b) :: rest)
    else if b = Memory.unlisted then (k, v) :: rest
    else (a, b) :: (k, v) :: rest

/-- The canonical form from address `lo` on: addresses strictly rising, no cell equal to what an unlisted address
reads as. -/
def Memory.wfFrom : Nat → Memory → Bool
  | _, [] => true
  | lo, (k, v) :: rest => decide (lo ≤ k) && v != Memory.unlisted && Memory.wfFrom (k + 1) rest

/-- The canonical form. -/
def Memory.wf (m : Memory) : Bool := Memory.wfFrom 0 m

/-- `MemRead(addr, 1)` (R12, R63); a byte at or above MEM_SIZE does not exist (R60, log entry 7). -/
def State.memRead (s : State) (a : Nat) : Except Fault Byte :=
  if a < s.par.memSize then .ok (s.sys.read a) else .error (.noSuchAddress a)

/-- The `n` bytes from address `a` on, read one at a time in increasing order (R62, R63). -/
def State.memReads (s : State) : Nat → Nat → Except Fault (List Byte)
  | _, 0 => .ok []
  | a, n + 1 =>
    match s.memRead a with
    | .error f => .error f
    | .ok b =>
      match s.memReads (a + 1) n with
      | .error f => .error f
      | .ok bs => .ok (b :: bs)

/-! ## Pulse memory (R39, R61) -/

/-- `PMEM[i]`, the index taken modulo N_MEM, the number of its entries (R12, R61). The 0 stands for an entry of a memory
without entries, which no machine has (R7). -/
def PMem.read (m : PMem) (i : Nat) : Word := m.getD (i % m.length) 0#32

/-- `PMEM[i] <- w`, the index taken modulo N_MEM (R12, R61, R114). -/
def PMem.write (m : PMem) (i : Nat) (w : Word) : PMem := m.set (i % m.length) w

/-- Entries written one after another from index `i` on. -/
def PMem.writeMany : PMem → Nat → List Word → PMem
  | m, _, [] => m
  | m, i, w :: ws => PMem.writeMany (m.write i w) (i + 1) ws

/-! ## Host states (R41) -/

/-- HSTATE(h), if there is such a host. -/
def State.hstateAt (s : State) (h : Nat) : Option HostState := s.hstate[h]?

/-- `HSTATE(h) <- x`. -/
def State.setHstate (s : State) (h : Nat) (x : HostState) : State := { s with hstate := s.hstate.set h x }

/-! ## Faults (R200 to R207) -/

/-- The fault kinds of R200. -/
inductive FaultKind where
  | configFault
  | notConfigured
  | waitTimeout
  | underrun
  | busError
deriving DecidableEq, Repr

/-- FAULT_CODE of each kind (R200). -/
def faultCodeOf : FaultKind → BitVec 4
  | .configFault => 1#4
  | .notConfigured => 2#4
  | .waitTimeout => 3#4
  | .underrun => 4#4
  | .busError => 5#4

/-- `raise Fault(code, info)` (R206): the fault record is written, the line goes idle, playback and refill are off;
LOCK, CTL_STATE, HSTATE, the cursor, PMEM and TRACE keep their values. -/
def State.raiseFault (s : State) (k : FaultKind) (info : Word) : State :=
  { s with
    faulted := true, faultCode := faultCodeOf k, faultInfo := info,
    pbRun := false, dout := s.par.idleLevel, rflEn := false, thrPending := false }

/-- The reset event, the only way out of the fault state (R207, R230): the values of R44; system memory, the
parameters and the environment's agenda are not the block's; PMEM is drawn anew. -/
def State.resetEvent (s : State) : State := State.powerOn s.par s.sys s.agenda s.draws

/-- `refuse(reason)` (R12, R14): the sticky mark REFUSED and no other change. -/
def State.refuse (s : State) : State := { s with refused := true }

/-! ## Who has a step -/

/-- An agent can have a step at all: no fault and no refusal has happened (R14, R206). -/
def State.live (s : State) : Bool := !s.faulted && !s.refused

/-- The issuer may take a step: the machine is live and, where it is a host, its HSTATE is IDLE (R100). -/
def State.canIssue (s : State) : Bool :=
  s.live &&
    match s.issuer with
    | .host h => decide (s.hstateAt h = some .idle)
    | .ctl => true
    | .rfl => true
    | .thr => true

/-- The gate of every transaction (R14, R90, R101): an issuer without a step holds; an illegal transaction is refused
before it has any effect; a legal one has its effect. -/
def State.transact (s : State) (legal : Bool) (act : State → State) : State :=
  if s.canIssue then (if legal then act s else s.refuse) else s

/-- Words that are no transaction, from an issuer that may take a step, are refused (R90, log entry 13). -/
def State.rejectWords (s : State) : State := s.transact false id

end Sys2Proof.Machine
end

