-- ==== Sys2Proof/Machine/Operands.lean ====
section
/-! DEFINITION. Operand forms: who may issue what (R88, R101), the entries of bits and bytes (R83 to R85, R147), and
the words a host or a reader computes from the state (R32, R38, R6). -/

namespace Sys2Proof.Machine

/-! ## Issuers (R88, R90, R101) -/

/-- A host stands on the port. -/
def State.byHost (s : State) : Bool :=
  match s.issuer with
  | .host _ => true
  | .ctl => false
  | .rfl => false
  | .thr => false

/-- CTL stands on the port. -/
def State.byCtl (s : State) : Bool := decide (s.issuer = .ctl)

/-- RFL stands on the port. -/
def State.byRfl (s : State) : Bool := decide (s.issuer = .rfl)

/-- The threshold event is being served. -/
def State.byThr (s : State) : Bool := decide (s.issuer = .thr)

/-- The host on the port. -/
def State.hostId (s : State) : Nat :=
  match s.issuer with
  | .host h => h
  | .ctl => 0
  | .rfl => 0
  | .thr => 0

/-! ## Entries of bits, bytes and the latch block -/

/-- The entry of one data bit: T1H high and T1L low for a 1, T0H high and T0L low for a 0 (R83, R84, R148). -/
def bitEntry (p : Params) (b : Bool) : Word :=
  if b then mkEntry true p.t1h false p.t1l else mkEntry true p.t0h false p.t0l

/-- The entry of the latch block (R85). -/
def latchEntry (p : Params) : Word := mkEntry false p.latchD false p.latchD

/-- LATCHBLOCK, LATCH_LEN latch entries (R8, R94). -/
def latchBlock (p : Params) : List Word := List.replicate p.latchLen (latchEntry p)

/-- The bits of a byte from most significant to least significant (R62). -/
def bitsMsbFirst (b : Byte) : List Bool := (List.range 8).map fun j => b.getLsbD (7 - j)

/-- BYTE b: the eight entries of a byte, most significant bit first (R94, R147). -/
def byteEntries (p : Params) (b : Byte) : List Word := (bitsMsbFirst b).map (bitEntry p)

/-- The entries of a list of bytes in order (R62). -/
def bytesEntries (p : Params) (bs : List Byte) : List Word := bs.flatMap (byteEntries p)

/-- ENCODE_BYTE(b, base) for each byte of a list, byte `k` at `base + 8k` (R147). -/
def PMem.encodeBytes (m : PMem) (p : Params) (base : Nat) (bs : List Byte) : PMem :=
  m.writeMany base (bytesEntries p bs)

/-! ## Words computed from the state -/

/-- LOCK is held (R34). -/
def State.busy (s : State) : Bool :=
  match s.lock with
  | .free => false
  | .held _ => true

/-- The STATUS word (R38). -/
def State.statusWord (s : State) : Word :=
  BitVec.ofNat 32
    (s.busy.toNat + s.cfgValid.toNat * 2 ^ 1 + s.faulted.toNat * 2 ^ 2 + s.faultCode.toNat * 2 ^ 4)

/-- The configuration register CONF (R32). -/
def State.confWord (s : State) : Word := BitVec.ofNat 32 (s.div.toNat + s.cfgValid.toNat * 2 ^ 8)

/-- The input-clock cycles of a number of base units: one base unit is DIV cycles (R6, R32); the time in seconds is
this over F_CLK (R168, R242, log entry 22). -/
def State.clockCycles (s : State) (units : Nat) : Nat := units * s.div.toNat

end Sys2Proof.Machine
end

