-- ==== Sys2Proof/Machine/Flags.lean ====
section
/-! DEFINITION. The event flags and what sets and clears them: emission, the threshold event, the transmit-complete
signal, the timeout check, hooking, and the start of playback (R112, R113, R160 to R170). -/

namespace Sys2Proof.Machine

/-- `emit(l, d)` (R169): TRACE gains the segment, DOUT takes its level, ELAPSED its duration. -/
def State.emit (s : State) (l : Level) (d : Dur) : State :=
  { s with trace := s.trace ++ [⟨l, d.toNat⟩], dout := l, elapsed := s.elapsed + d.toNat }

/-- END_PLAYBACK (R167). -/
def State.endPlayback (s : State) : State :=
  { s with pbRun := false, dout := s.par.idleLevel, thrPending := false, done := true }

/-- RAISE_THR (R166): an event while RFL_EN = 0 is discarded; one while THR_PENDING = 1 is Underrun with
RP, modulo 2^32 where N_MEM is that large (DESIGN CHOICE, log entry 26). -/
def State.raiseThr (s : State) : State :=
  if s.rflEn then
    if s.thrPending then s.raiseFault .underrun (BitVec.ofNat 32 s.rp) else { s with thrPending := true }
  else s

/-- TIMEOUT_CHECK (R111). -/
def State.timeoutCheck (s : State) : State :=
  if s.ctl = .waiting ∧ s.done = false ∧ s.par.waitTimeout < s.elapsed then
    s.raiseFault .waitTimeout (BitVec.ofNat 32 s.elapsed)
  else s

/-- IRQ_HOOK's effect (R112). -/
def State.hook (s : State) : State := { s with rflEn := true }

/-- IRQ_UNHOOK's effect (R113). -/
def State.unhook (s : State) : State := { s with rflEn := false, thrPending := false }

/-- WAIT_DONE's effect (R111): CTL waits; the timeout operand is not read (log entry 17). -/
def State.startWait (s : State) : State := { s with ctl := .waiting }

/-- START_PLAYBACK (R160). -/
def State.startPlayback (s : State) : State :=
  if entryDur0 (s.pmem.read 0) = 0#15 then
    ({ s with
      rp := 0, cur := s.pmem.read 0, elapsed := 0, done := false, thrPending := false }).endPlayback
  else
    { s with
      rp := 0, cur := s.pmem.read 0, elapsed := 0, done := false, thrPending := false, pbRun := true }

end Sys2Proof.Machine
end

