-- ==== Sys2Proof/Machine/Control.lean ====
section
/-! DEFINITION. The host transactions and CTL's operations, and CTL's two steps, acceptance and completion of a SHOW
(spec/40_control.md). -/

namespace Sys2Proof.Machine

/-- CONFIGURE's effect once it is not refused (R102): a zero divider faults before a failed install (R212). -/
def State.doConfigure (s : State) (div : BitVec 8) : State :=
  if div = 0#8 then s.raiseFault .configFault 0#32
  else if s.installOk then { s with div := div, cfgValid := true }
  else s.raiseFault .configFault 1#32

/-- CONFIGURE (R102): by a host, once; a second one is refused (R90). -/
def execConfigure (div : BitVec 8) (s : State) : Host.Outcome State Fault Refusal :=
  .next (s.transact (s.byHost && !s.cfgValid) (fun s => s.doConfigure div))

/-- SHOW's issue (R104): the host's request waits for acceptance. An address bit at or above ADDR_W is a reserved bit
of ARG0 (R89, R90). -/
def execShowFrame (base len : Word) (s : State) : Host.Outcome State Fault Refusal :=
  .next (s.transact (s.byHost && decide (base.toNat < 2 ^ s.par.addrW))
    (fun s => s.setHstate s.hostId (.showReq base len)))

/-- STATUS (R107): the word goes to the issuing host; nothing of the block changes. -/
def execStatus (s : State) : Host.Outcome State Fault Refusal :=
  .next (s.transact s.byHost (fun s => { s with reply := some (s.hostId, s.statusWord) }))

/-- WRITE_FIXED_BLOCK's effect once its length is legal (R110): refused while playback runs. -/
def State.writeBlock (s : State) (wait : Bool) (entries : List Word) : State :=
  if s.pbRun then s.refuse
  else if wait then ({ s with pmem := s.pmem.writeMany 0 entries }).startPlayback.startWait
  else ({ s with pmem := s.pmem.writeMany 0 entries }).startPlayback

/-- WRITE_FIXED_BLOCK (R110): by CTL, BLOCK_LEN in 1..N_MEM (R90). -/
def execWriteFixedBlock (wait : Bool) (entries : List Word) (s : State) : Host.Outcome State Fault Refusal :=
  .next (s.transact (s.byCtl && decide (0 < entries.length) && decide (entries.length ≤ s.par.nMem))
    (fun s => s.writeBlock wait entries))

/-- WAIT_DONE (R111): by CTL; the timeout operand is not read by the rule's pseudocode (log entry 17). -/
def execWaitDone (_timeout : Word) (s : State) : Host.Outcome State Fault Refusal :=
  .next (s.transact s.byCtl State.startWait)

/-- IRQ_HOOK (R112): by CTL. -/
def execIrqHook (s : State) : Host.Outcome State Fault Refusal := .next (s.transact s.byCtl State.hook)

/-- IRQ_UNHOOK (R113): by CTL. -/
def execIrqUnhook (s : State) : Host.Outcome State Fault Refusal := .next (s.transact s.byCtl State.unhook)

/-! ## CTL's steps -/

/-- The start of a frame once the checks of R103 have passed: the session registers and the cursor, IRQ_HOOK,
WRITE_FIXED_BLOCK of the latch block, WAIT_DONE. A refused block write ends the step (log entry 18). -/
def State.startFrame (s : State) (base len : Word) : State :=
  let t := { s with bufBase := base, bufLen := len, pos := 0#32, len := len, txoff := 0 }.hook.writeBlock
    false (latchBlock s.par)
  if t.refused then t else t.startWait

/-- ACCEPT(h, base, len) (R103): the lock and HSTATE first, then NotConfigured, then BusError (R212), then the frame.
The host id goes into FAULT_INFO modulo 2^32 where K_HOSTS is that large (DESIGN CHOICE, log entry 26). -/
def State.acceptShow (s : State) (h : Nat) (base len : Word) : State :=
  let t := { s with lock := .held h }.setHstate h .showActive
  if t.cfgValid = false then t.raiseFault .notConfigured (BitVec.ofNat 32 h)
  else if t.par.memSize < base.toNat + len.toNat then t.raiseFault .busError base
  else t.startFrame base len

/-- SHOW acceptance (R103) where it is enabled for host `h`, a hold elsewhere. -/
def State.accept (s : State) (h : Nat) : State :=
  if s.live ∧ s.ctl = .idle ∧ s.lock = .free then
    match s.hstateAt h with
    | some (.showReq base len) => s.acceptShow h base len
    | some .idle => s
    | some .showActive => s
    | none => s
  else s

/-- COMPLETE (R105) where it is enabled, a hold elsewhere. With no owner of LOCK, which R35 excludes, the session ends and
no HSTATE changes (DESIGN CHOICE, log entry 28). -/
def State.complete (s : State) : State :=
  if s.live ∧ s.ctl = .waiting ∧ s.done = true then
    match s.lock with
    | .held h => { s.unhook with done := false, lock := .free, ctl := .idle }.setHstate h .idle
    | .free => { s.unhook with done := false, lock := .free, ctl := .idle }
  else s

end Sys2Proof.Machine
end

