-- ==== Sys2Proof/Machine/Playback.lean ====
section
/-! DEFINITION. Playing the latched entry: END0, END1, PAIR and the named entries (spec/42_playback.md). -/

namespace Sys2Proof.Machine

/-- A playback step is enabled (R161). -/
def State.canPlay (s : State) : Bool := s.live && s.pbRun

/-- The next entry is latched: RP advances by one, wrapping at N_MEM, and CUR is read from PMEM (R162, R165, R76). -/
def State.latchNext (s : State) : State :=
  { s with rp := (s.rp + 1) % s.par.nMem, cur := s.pmem.read ((s.rp + 1) % s.par.nMem) }

/-- RP is at a half boundary (R166). -/
def State.atBoundary (s : State) : Bool := decide (s.rp = 0 ∨ s.rp = s.par.half)

/-- The end of a PB_STEP after the next entry is latched (R162, R211): an END0 ends playback in place of any event;
otherwise THR is raised at a half boundary, and the timeout is checked unless that faulted. -/
def State.afterLatch (s : State) : State :=
  if entryDur0 s.cur = 0#15 then s.endPlayback
  else if s.atBoundary then
    if s.raiseThr.faulted then s.raiseThr else s.raiseThr.timeoutCheck
  else s.timeoutCheck

/-- PB_STEP on a PAIR (R162). -/
def State.playPair (s : State) (lvl0 : Level) (dur0 : Dur) (lvl1 : Level) (dur1 : Dur) : State :=
  if s.canPlay then ((s.emit lvl0 dur0).emit lvl1 dur1).latchNext.afterLatch else s

/-- PB_STEP on an END1 (R162, R164): RP does not advance, no event is raised. -/
def State.playEnd1 (s : State) (lvl0 : Level) (dur0 : Dur) : State :=
  if s.canPlay then (s.emit lvl0 dur0).endPlayback else s

/-- An END0 as the latched entry (R163): nothing of it is emitted, playback ends (log entry 20). -/
def State.playEnd0 (s : State) : State := if s.canPlay then s.endPlayback else s

/-- END0 (R163); its other fields have no effect (R91). -/
def execEnd0 (_lvl0 : Level) (_dur1 : Dur) (_lvl1 : Level) (s : State) : Host.Outcome State Fault Refusal :=
  .next s.playEnd0

/-- END1 (R164); LVL1 has no effect (R91). -/
def execEnd1 (lvl0 : Level) (dur0 : Dur) (_lvl1 : Level) (s : State) : Host.Outcome State Fault Refusal :=
  .next (s.playEnd1 lvl0 dur0)

/-- PAIR (R162). -/
def execPair (lvl0 : Level) (dur0 : Dur) (lvl1 : Level) (dur1 : Dur) (s : State) :
    Host.Outcome State Fault Refusal :=
  .next (s.playPair lvl0 dur0 lvl1 dur1)

/-- BIT0, PAIR 1,4,0,7 (R83, R171). -/
def execBit0 (s : State) : Host.Outcome State Fault Refusal := .next (s.playPair true 4#15 false 7#15)

/-- BIT1, PAIR 1,8,0,6 (R84, R172). -/
def execBit1 (s : State) : Host.Outcome State Fault Refusal := .next (s.playPair true 8#15 false 6#15)

/-- LATCH, PAIR 0,4,0,4 (R85, R173). -/
def execLatch (s : State) : Host.Outcome State Fault Refusal := .next (s.playPair false 4#15 false 4#15)

/-- TERM, an END0 (R86, R174). -/
def execTerm (s : State) : Host.Outcome State Fault Refusal := .next s.playEnd0

end Sys2Proof.Machine
end

