-- ==== Sys2Proof/Machine/Refill.lean ====
section
/-! DEFINITION. The refill engine: MEM_WRITE and REFILL (spec/40_control.md R114, spec/41_refill.md). -/

namespace Sys2Proof.Machine

/-- MEM_WRITE (R114): by RFL; one entry, its offset modulo N_MEM; CUR is not changed (R76). -/
def execMemWrite (offset : BitVec 16) (entry : Word) (s : State) : Host.Outcome State Fault Refusal :=
  .next (s.transact s.byRfl (fun s => { s with pmem := s.pmem.write offset.toNat entry }))

/-- How many bytes this refill encodes: CAP in branch A, LEN in branches B (none) and C (R143 to R145). -/
def State.refillCount (s : State) : Nat := if s.par.cap < s.len.toNat then s.par.cap else s.len.toNat

/-- The first byte of this refill, BUF_BASE + POS (R63). -/
def State.refillAddr (s : State) : Nat := s.bufBase.toNat + s.pos.toNat

/-- The ping-pong toggle (R146). -/
def State.toggledTxoff (s : State) : Nat := if s.txoff = 0 then s.par.half else 0

/-- REFILL once its bytes are read (R142): branch A, B or C, then the toggle and the return (R150). -/
def State.refillWith (s : State) (bs : List Byte) : State :=
  if s.par.cap < s.len.toNat then
    { s with
      pmem := s.pmem.encodeBytes s.par s.txoff bs,
      pos := s.pos + BitVec.ofNat 32 s.par.cap, len := s.len - BitVec.ofNat 32 s.par.cap,
      txoff := s.toggledTxoff, thrPending := false }
  else if s.len = 0#32 then
    { s with pmem := s.pmem.write s.txoff wordTerm, txoff := s.toggledTxoff, thrPending := false }
  else
    { s with
      pmem := (s.pmem.encodeBytes s.par s.txoff bs).write (s.txoff + 8 * s.len.toNat) wordTerm,
      len := 0#32, txoff := s.toggledTxoff, thrPending := false }

/-- The refill step is enabled (R140). -/
def State.canRefill (s : State) : Bool := s.live && s.thrPending && s.rflEn

/-- REFILL (R142), the service of the threshold event: enabled by R140, a hold elsewhere. Issued as a transaction by a
host, CTL or RFL it is refused (R90); for one under the name `thr` see log entry 27. -/
def execRefill (s : State) : Host.Outcome State Fault Refusal :=
  if s.byThr then
    if s.canRefill then
      match s.memReads s.refillAddr s.refillCount with
      | .error f => .fault f
      | .ok bs => .next (s.refillWith bs)
    else .next s
  else .next s.rejectWords

end Sys2Proof.Machine
end

