-- ==== Sys2Proof/Machine/Reserved.lean ====
section
/-! DEFINITION. The reserved operation codes: refused, whoever issues them (spec/30_encoding.md R90). -/

namespace Sys2Proof.Machine

/-- Reserved code 0x0 (R90). -/
def execReserved0x0 (_upper : BitVec 28) (s : State) : Host.Outcome State Fault Refusal := .next s.rejectWords

/-- Reserved code 0x4 (R90). -/
def execReserved0x4 (_upper : BitVec 28) (s : State) : Host.Outcome State Fault Refusal := .next s.rejectWords

/-- Reserved code 0x5 (R90). -/
def execReserved0x5 (_upper : BitVec 28) (s : State) : Host.Outcome State Fault Refusal := .next s.rejectWords

/-- Reserved code 0x6 (R90). -/
def execReserved0x6 (_upper : BitVec 28) (s : State) : Host.Outcome State Fault Refusal := .next s.rejectWords

/-- Reserved code 0x7 (R90). -/
def execReserved0x7 (_upper : BitVec 28) (s : State) : Host.Outcome State Fault Refusal := .next s.rejectWords

/-- Reserved code 0x8 (R90). -/
def execReserved0x8 (_upper : BitVec 28) (s : State) : Host.Outcome State Fault Refusal := .next s.rejectWords

/-- Reserved code 0xF (R90). -/
def execReserved0xF (_upper : BitVec 28) (s : State) : Host.Outcome State Fault Refusal := .next s.rejectWords

end Sys2Proof.Machine
end

