-- ==== Sys2Proof/Machine/Dispatch.lean ====
section
/-! DEFINITION. One arm per constructor of Instr. -/

namespace Sys2Proof.Machine

def exec (i : Instr) (s : State) : Host.Outcome State Fault Refusal :=
  match i with
  | .end0 lvl0 dur1 lvl1 => Sys2Proof.Machine.execEnd0 lvl0 dur1 lvl1 s
  | .end1 lvl0 dur0 lvl1 => Sys2Proof.Machine.execEnd1 lvl0 dur0 lvl1 s
  | .pair lvl0 dur0 lvl1 dur1 => Sys2Proof.Machine.execPair lvl0 dur0 lvl1 dur1 s
  | .bit0 => Sys2Proof.Machine.execBit0 s
  | .bit1 => Sys2Proof.Machine.execBit1 s
  | .latch => Sys2Proof.Machine.execLatch s
  | .term => Sys2Proof.Machine.execTerm s
  | .configure div => Sys2Proof.Machine.execConfigure div s
  | .showFrame base len => Sys2Proof.Machine.execShowFrame base len s
  | .status => Sys2Proof.Machine.execStatus s
  | .writeFixedBlock wait entries => Sys2Proof.Machine.execWriteFixedBlock wait entries s
  | .waitDone timeout => Sys2Proof.Machine.execWaitDone timeout s
  | .irqHook => Sys2Proof.Machine.execIrqHook s
  | .irqUnhook => Sys2Proof.Machine.execIrqUnhook s
  | .memWrite offset entry => Sys2Proof.Machine.execMemWrite offset entry s
  | .refill => Sys2Proof.Machine.execRefill s
  | .reserved0x0 upper => Sys2Proof.Machine.execReserved0x0 upper s
  | .reserved0x4 upper => Sys2Proof.Machine.execReserved0x4 upper s
  | .reserved0x5 upper => Sys2Proof.Machine.execReserved0x5 upper s
  | .reserved0x6 upper => Sys2Proof.Machine.execReserved0x6 upper s
  | .reserved0x7 upper => Sys2Proof.Machine.execReserved0x7 upper s
  | .reserved0x8 upper => Sys2Proof.Machine.execReserved0x8 upper s
  | .reserved0xF upper => Sys2Proof.Machine.execReserved0xF upper s

end Sys2Proof.Machine
end

