-- ==== Sys2Proof/Machine/Turn.lean ====
section
/-! DEFINITION. One choice of the environment carried out: the step of the agent it names (R13, R14), and a table word
placed where the next step takes it. -/

namespace Sys2Proof.Machine

/-- A transaction of these words, from this issuer, with this draw INSTALL_OK: decoded (R92, R101) and run, or refused
where the words are not one whole transaction (R90, log entry 13). `thr` is no issuer of the spec's: REFILL offered under
that name is served as the refill step (DESIGN CHOICE, log entry 27). -/
def State.issue (s : State) (who : Issuer) (words : List Word) (installOk : Bool) :
    Host.Outcome State Fault Refusal :=
  match decodeTxn words with
  | .ok (i, []) => exec i { s with issuer := who, installOk := installOk }
  | .ok (_, _ :: _) => .next ({ s with issuer := who, installOk := installOk }).rejectWords
  | .error _ => .next ({ s with issuer := who, installOk := installOk }).rejectWords

/-- A host's write of one byte of system memory (R42, R100): a hold where the host has no step. -/
def State.hostWrite (s : State) (h a : Nat) (b : Byte) : Host.Outcome State Fault Refusal :=
  if s.live ∧ s.hstateAt h = some .idle then
    if a < s.par.memSize then .next { s with sys := s.sys.write a b } else .fault (.noSuchAddress a)
  else .next s

/-- The step a choice names; a hold where it is not enabled (R14). -/
def State.take (s : State) : Choice → Host.Outcome State Fault Refusal
  | .issue who words installOk => s.issue who words installOk
  | .memWrite h a b => s.hostWrite h a b
  | .accept h => .next (s.accept h)
  | .complete => .next s.complete
  | .refill => exec .refill { s with issuer := .thr }
  | .play => exec (decodeEntry s.cur) s
  | .reset => .next s.resetEvent

/-- Where the agenda is empty the choice is a free value among the spec's own steps (log entry 1). -/
def State.takeFree (s : State) : Host.Outcome State Fault Refusal :=
  if (Config.freeChoice s.draws).own then
    State.take { s with draws := s.draws + 1 } (Config.freeChoice s.draws)
  else .next { s with draws := s.draws + 1 }

/-- The next choice is taken off the agenda and carried out. -/
def State.takeNext (s : State) : Host.Outcome State Fault Refusal :=
  match s.agenda with
  | [] => s.takeFree
  | c :: rest => State.take { s with agenda := rest } c

/-- Who may issue a transaction of this operation code (R88); the threshold event stands for REFILL, host 0 for the
hosts. -/
def issuerOfOp (op : BitVec 4) : Issuer :=
  if op = 0x9#4 ∨ op = 0xA#4 ∨ op = 0xB#4 ∨ op = 0xC#4 then .ctl
  else if op = 0xD#4 then .rfl
  else if op = 0xE#4 then .thr
  else .host 0

/-- The argument words R89 gives an operation code besides the header, none counted for a block's entries. -/
def argCountOfOp (op : BitVec 4) : Nat :=
  if op = 0x1#4 then 1
  else if op = 0x2#4 then 2
  else if op = 0x9#4 then 1
  else if op = 0xA#4 then 1
  else if op = 0xD#4 then 2
  else 0

/-- A table word placed so that the next step runs it (log entry 14): an entry is latched in CUR with playback running;
REFILL has its threshold event pending and hooked; another transaction is issued by one who may. -/
def State.placeWord (s : State) (nbits w : Nat) : State :=
  match tableLang nbits w with
  | .entry => { s with cur := BitVec.ofNat 32 w, pbRun := true, agenda := .play :: s.agenda }
  | .txn =>
    if hdrOp (BitVec.ofNat 32 w) = 0xE#4 then
      { s with thrPending := true, rflEn := true, agenda := .refill :: s.agenda }
    else
      { s with
        agenda :=
          .issue (issuerOfOp (hdrOp (BitVec.ofNat 32 w)))
            ((tableWords w).take (argCountOfOp (hdrOp (BitVec.ofNat 32 w)) + 1)) true :: s.agenda }

end Sys2Proof.Machine
end

