-- ==== Sys2Proof/Machine/Step.lean ====
section
/-! DEFINITION. The step function, and the placing of a table word where the next step takes it. -/

namespace Sys2Proof.Machine

/-- One step (R13): the environment's next choice, carried out by the agent it names. -/
def step (s : State) : Host.Outcome State Fault Refusal := s.takeNext

/-- `s` with the instruction whose bits are `w` where the next step takes it (log entry 14). -/
def State.withFetchWord (s : State) (nbits w : Nat) : State := s.placeWord nbits w

end Sys2Proof.Machine
end

