-- ==== Sys2Proof/Safety.lean ====
section
/-! DEFINITION. What claims speak of: the halves an entry plays, the waveform of a frame, the buffer's layout, the
obligations on hosts, and the invariant that every step of the spec keeps. -/

namespace Sys2Proof.Machine

/-! ## What an entry plays -/

/-- The two halves an instruction of class PAIR plays, by its fields or by its name (R82, R94). -/
def pairHalves : Instr → Option (Level × Dur × Level × Dur)
  | .pair lvl0 dur0 lvl1 dur1 => some (lvl0, dur0, lvl1, dur1)
  | .bit0 => some (true, 4#15, false, 7#15)
  | .bit1 => some (true, 8#15, false, 6#15)
  | .latch => some (false, 4#15, false, 4#15)
  | _ => none

/-- The instruction is of class END0 (R82). -/
def isEnd0 : Instr → Bool
  | .end0 _ _ _ => true
  | .term => true
  | _ => false

/-- The instruction is of class END1 (R82). -/
def isEnd1 : Instr → Bool
  | .end1 _ _ _ => true
  | _ => false

/-- The instruction is a transaction (R87). -/
def isTxn (i : Instr) : Bool := decide (i.lang = .txn)

/-- The instruction has one of the reserved operation codes (R88). -/
def isReserved : Instr → Bool
  | .reserved0x0 _ => true
  | .reserved0x4 _ => true
  | .reserved0x5 _ => true
  | .reserved0x6 _ => true
  | .reserved0x7 _ => true
  | .reserved0x8 _ => true
  | .reserved0xF _ => true
  | _ => false

/-! ## States written out from the rules' own pseudocode -/

/-- The state after both halves of an entry are emitted and the next entry is latched (R162's first five lines). -/
def State.played (s : State) (lvl0 : Level) (dur0 : Dur) (lvl1 : Level) (dur1 : Dur) : State :=
  { s with
    trace := s.trace ++ [⟨lvl0, dur0.toNat⟩, ⟨lvl1, dur1.toNat⟩], dout := lvl1,
    elapsed := s.elapsed + dur0.toNat + dur1.toNat,
    rp := (s.rp + 1) % s.par.nMem, cur := s.pmem.read ((s.rp + 1) % s.par.nMem) }

/-- The state after END_PLAYBACK (R167). -/
def State.ended (s : State) : State :=
  { s with pbRun := false, dout := s.par.idleLevel, thrPending := false, done := true }

/-- The state after `raise Fault(code, info)` (R206). -/
def State.raised (s : State) (code : BitVec 4) (info : Word) : State :=
  { s with
    faulted := true, faultCode := code, faultInfo := info, pbRun := false, dout := s.par.idleLevel, rflEn := false,
    thrPending := false }

/-- The state after a refusal (R14, R90). -/
def State.marked (s : State) : State := { s with refused := true }

/-- A PB_STEP that goes on passes the time limit (R111). -/
def State.overTime (s : State) : Prop := s.ctl = .waiting ∧ s.done = false ∧ s.par.waitTimeout < s.elapsed

/-- RP is at a half boundary and the refill handler is hooked, so THR is raised (R166). -/
def State.raisesThr (s : State) : Prop := (s.rp = 0 ∨ s.rp = s.par.half) ∧ s.rflEn = true

/-- The words of a transaction that R90 calls illegal, by their bits alone: a reserved operation code, a reserved bit
set in the header or in an argument (R89), an operation the issuer may not issue (R88, R101), a block of no or of more
than N_MEM entries, a second CONFIGURE. -/
def illegalWords (s : State) (who : Issuer) (hdr : Word) (args : List Word) : Prop :=
  hdrOp hdr ∈ [0x0#4, 0x4#4, 0x5#4, 0x6#4, 0x7#4, 0x8#4, 0xF#4] ∨
  hdrUpper hdr ≠ 0#28 ∨
  (hdrOp hdr = 0x1#4 ∧ ∃ a rest, args = a :: rest ∧ a.extractLsb' 8 24 ≠ 0#24) ∨
  (hdrOp hdr = 0x2#4 ∧ ∃ a rest, args = a :: rest ∧ 2 ^ s.par.addrW ≤ a.toNat) ∨
  (hdrOp hdr = 0x9#4 ∧ ∃ a rest, args = a :: rest ∧ a.extractLsb' 17 15 ≠ 0#15) ∨
  (hdrOp hdr = 0xD#4 ∧ ∃ a rest, args = a :: rest ∧ a.extractLsb' 16 16 ≠ 0#16) ∨
  (∃ h, who = .host h ∧ hdrOp hdr ∉ [0x1#4, 0x2#4, 0x3#4]) ∨
  (who = .ctl ∧ hdrOp hdr ∉ [0x9#4, 0xA#4, 0xB#4, 0xC#4]) ∨
  (who = .rfl ∧ hdrOp hdr ≠ 0xD#4) ∨
  (hdrOp hdr = 0x9#4 ∧ ∃ a rest, args = a :: rest ∧
    ((a.extractLsb' 0 16).toNat = 0 ∨ s.par.nMem < (a.extractLsb' 0 16).toNat)) ∨
  (hdrOp hdr = 0x1#4 ∧ s.cfgValid = true)

/-- The parameters are legal and PMEM has N_MEM entries (R7, R39). -/
def State.sized (s : State) : Prop := s.par.wf = true ∧ s.pmem.length = s.par.nMem

/-! ## The waveform of a frame (R180) -/

/-- The two segments of a data bit (R83, R84). -/
def bitSegments (p : Params) (b : Bool) : List Segment :=
  if b then [⟨true, p.t1h.toNat⟩, ⟨false, p.t1l.toNat⟩] else [⟨true, p.t0h.toNat⟩, ⟨false, p.t0l.toNat⟩]

/-- The segments of one latch entry (R173). -/
def latchSegments (p : Params) : List Segment := [⟨false, p.latchD.toNat⟩, ⟨false, p.latchD.toNat⟩]

/-- The segments of the latch block. -/
def latchBlockSegments (p : Params) : List Segment := (List.replicate p.latchLen (latchSegments p)).flatten

/-- The segments of a list of bytes, each most significant bit first (R62). -/
def dataSegments (p : Params) (bs : List Byte) : List Segment :=
  bs.flatMap fun b => (bitsMsbFirst b).flatMap (bitSegments p)

/-- FRAME(b) of R180. -/
def frame (p : Params) (bs : List Byte) : List Segment := latchBlockSegments p ++ dataSegments p bs

/-- The base units a list of segments lasts (R168). -/
def unitsOf (segs : List Segment) : Nat := (segs.map Segment.units).sum

/-- How many bits of a list of bytes are 1 (R181's O). -/
def onesOf (bs : List Byte) : Nat := (bs.flatMap bitsMsbFirst).countP id

/-- The bytes of the buffer at `base` (R42, R63). -/
def State.bufferBytes (s : State) (base len : Word) : List Byte :=
  (List.range len.toNat).map fun k => s.sys.read (base.toNat + k)

/-! ## The buffer's layout and the obligations on hosts (R65, R232, R235) -/

/-- A pixel by its channels; without white, pixelWidth is 3 (R65). -/
structure Pixel where
  red : Byte
  green : Byte
  blue : Byte
  white : Option Byte
deriving DecidableEq, Repr

/-- The bytes of a pixel in device channel order: green, red, blue and, where there is one, white (R65, C4). -/
def Pixel.wire (px : Pixel) : List Byte := [px.green, px.red, px.blue] ++ px.white.toList

/-- The buffer of a list of pixels: pixel `i` at `i × pixelWidth` (R65). -/
def pixelBuffer (pixels : List Pixel) : List Byte := pixels.flatMap Pixel.wire

/-- A choice the environment may make while the frame of the buffer at `base` is in flight, up to its DONE: a step of
the spec, no host write into the buffer (R235), no reset, and not the completion that follows DONE. -/
def keepsFrame (base len : Word) (c : Choice) : Bool :=
  c.own &&
    match c with
    | .memWrite _ a _ => decide (a < base.toNat ∨ base.toNat + len.toNat ≤ a)
    | .reset => false
    | .complete => false
    | _ => true

/-! ## The invariant -/

/-- The entries the block writes (R94). -/
def isBlockEntry (p : Params) (w : Word) : Prop :=
  w = bitEntry p false ∨ w = bitEntry p true ∨ w = latchEntry p ∨ w = wordTerm

/-- What holds at reset and after every step of the spec. -/
structure State.Inv (s : State) : Prop where
  /-- The parameters meet the spec's constraints (R5, R7, R8, R10), and PMEM has N_MEM entries (R39). -/
  sized : s.sized
  /-- R10, R41: there are K_HOSTS hosts. -/
  hosts : s.hstate.length = s.par.kHosts
  /-- System memory is in canonical form. -/
  sysWf : s.sys.wf = true
  /-- Only steps of the spec are on the agenda. -/
  agendaOwn : ∀ c ∈ s.agenda, c.own = true
  /-- R22: TXOFF is 0 or H. -/
  txoffHalf : s.txoff = 0 ∨ s.txoff = s.par.half
  /-- R24: RP is an index of PMEM. -/
  rpInside : s.rp < s.par.nMem
  /-- R34, R41: the lock is held by the one host whose SHOW is active. -/
  lockOwner : ∀ h, s.lock = .held h ↔ s.hstateAt h = some .showActive
  /-- R35: outside the fault state CTL waits if and only if the lock is held. -/
  waitingLock : s.faulted = false → (s.ctl = .waiting ↔ s.busy = true)
  /-- R200, R206: a fault has a code of the table; playback and refill are off. -/
  faultRecord : s.faulted = true →
    s.faultCode ≠ 0#4 ∧ s.faultCode.toNat ≤ 5 ∧ s.pbRun = false ∧ s.rflEn = false
  /-- R36: no fault, no record. -/
  noRecord : s.faulted = false → s.faultCode = 0#4 ∧ s.faultInfo = 0#32
  /-- R28, R167, R206: while no entry plays the line is idle and no threshold event is pending. -/
  idleLine : s.pbRun = false → s.dout = s.par.idleLevel ∧ s.thrPending = false
  /-- R163: a latched END0 has ended playback. -/
  runEntry : s.pbRun = true → entryDur0 s.cur ≠ 0#15
  /-- Playback runs only in a session that waits, hooked, without DONE (R103, R160). -/
  runWait : s.pbRun = true → s.ctl = .waiting ∧ s.rflEn = true ∧ s.done = false
  /-- A waiting session is hooked and either plays or is done (R161, R167). -/
  waitRun : s.ctl = .waiting → s.faulted = false → s.rflEn = true ∧ s.pbRun = !s.done
  /-- R238: between sessions nothing is left running, hooked or done. -/
  idleOff : s.ctl = .idle → s.pbRun = false ∧ s.rflEn = false ∧ s.done = false
  /-- R32: a valid configuration has a legal divider; without one DIV is 0. -/
  cfgDiv : s.cfgValid = true ↔ s.div ≠ 0#8
  /-- R103, R202: a session is configured. -/
  waitCfg : s.ctl = .waiting → s.cfgValid = true
  /-- R103, R205: a session's buffer lies in system memory. -/
  bufInside : s.ctl = .waiting → s.bufBase.toNat + s.bufLen.toNat ≤ s.par.memSize
  /-- R22: the cursor stays inside the buffer. -/
  cursorInside : s.ctl = .waiting → s.pos.toNat + s.len.toNat ≤ s.bufLen.toNat
  /-- R22, R151: while bytes remain the cursor covers the buffer's rest, from a multiple of CAP. -/
  cursorRest : s.ctl = .waiting → s.len ≠ 0#32 →
    s.pos.toNat + s.len.toNat = s.bufLen.toNat ∧ s.pos.toNat % s.par.cap = 0
  /-- R94: in a session the pulse memory and the latched entry hold only entries the block writes. -/
  blockEntries : s.ctl = .waiting → isBlockEntry s.par s.cur ∧ ∀ i, isBlockEntry s.par (s.pmem.read i)

end Sys2Proof.Machine
end

