-- ==== Sys2Proof/Certificates/Slice0/Obligations.lean ====
section
/-! DEFINITION. The statements for the provers. Each says which rule of spec/ it formalises. -/

open Sys2Proof Sys2Proof.Machine

/-! ## Encoding -/

/-- Every well-formed instruction is decoded from its own words, whatever words follow. -/
def Obligations.DecodeInvertsEncode : Prop :=
  ∀ (i : Instr) (rest : List Word), i.wf = true → decode i.lang (encode i ++ rest) = .ok (i, rest)

/-- R82: every word is an entry of exactly one class, the class the match and mask columns give. That no bit of it is lost
(its encoding is the word again) is the model's choice, log entry 15: R93's own forms of END0 and END1 print no ignored
bits. -/
def Obligations.EveryWordIsOneEntry : Prop :=
  ∀ w : Word,
    (decodeEntry w).wf = true ∧ (decodeEntry w).lang = .entry ∧ encode (decodeEntry w) = [w] ∧
    (isEnd0 (decodeEntry w) = true ↔ w &&& 0x00007FFF#32 = 0#32) ∧
    (isEnd1 (decodeEntry w) = true ↔ w &&& 0x00007FFF#32 ≠ 0#32 ∧ w &&& 0x7FFF0000#32 = 0#32) ∧
    ((pairHalves (decodeEntry w)).isSome = true ↔ w &&& 0x00007FFF#32 ≠ 0#32 ∧ w &&& 0x7FFF0000#32 ≠ 0#32)

/-- R80: a word of class PAIR plays the levels and durations in its own four fields, under whatever name it is read. -/
def Obligations.PairPlaysItsFields : Prop :=
  ∀ (w : Word) (lvl0 lvl1 : Level) (dur0 dur1 : Dur),
    pairHalves (decodeEntry w) = some (lvl0, dur0, lvl1, dur1) →
    w.extractLsb' 0 15 = dur0 ∧ w.getLsbD 15 = lvl0 ∧ w.extractLsb' 16 15 = dur1 ∧ w.getLsbD 31 = lvl1

/-- R92: the words a transaction was decoded from are its own encoding, so no bit of them was dropped. -/
def Obligations.DecodedWordsAreTheEncoding : Prop :=
  ∀ (ws rest : List Word) (i : Instr), decodeTxn ws = .ok (i, rest) → encode i ++ rest = ws

/-- Words written out from the spec's encodings decode to their instructions (V10 to V20, V23e, P1). -/
def Obligations.SpecWordsDecode : Prop :=
  decodeEntry 0x00000000#32 = .term ∧ decodeEntry 0x00078004#32 = .bit0 ∧ decodeEntry 0x00068008#32 = .bit1 ∧
  decodeEntry 0x00040004#32 = .latch ∧ decodeEntry 0x7FFF0000#32 = .end0 false 32767#15 false ∧
  decodeEntry 0x80008009#32 = .end1 true 9#15 true ∧ decodeEntry 0x80018001#32 = .pair true 1#15 true 1#15 ∧
  decodeTxn [0x00000001#32, 0x00000008#32] = .ok (.configure 8#8, []) ∧
  decodeTxn [0x00000002#32, 0x00001000#32, 0x00000003#32] = .ok (.showFrame 0x1000#32 3#32, []) ∧
  decodeTxn [0x0000000D#32, 0x00000020#32, 0x00000000#32] = .ok (.memWrite 0x20#16 0#32, []) ∧
  decodeTxn [0x00000011#32, 0x00000008#32] = .error .headerReserved ∧
  decodeTxn [0x00000001#32, 0x00000108#32] = .error .argReserved

/-- R90: an illegal transaction, from an issuer that may take a step, is refused and changes nothing else. -/
def Obligations.IllegalTransactionIsRefused : Prop :=
  ∀ (s : State) (who : Issuer) (hdr : Word) (args : List Word) (ok : Bool) (rest : List Choice),
    s.agenda = .issue who (hdr :: args) ok :: rest → who ≠ .thr →
    ({ s with agenda := rest, issuer := who, installOk := ok } : State).canIssue = true →
    illegalWords s who hdr args →
    step s = .next { s with agenda := rest, issuer := who, installOk := ok, refused := true }

/-! ## What a step is -/

/-- A step runs the instruction its words decode to: a transaction from its issuer, the latched entry, the service of the
threshold event. Around `exec` it takes the choice off the agenda and says who stands on the port. -/
def Obligations.StepRunsTheDecodedInstruction : Prop :=
  (∀ (s : State) (who : Issuer) (ws : List Word) (ok : Bool) (rest : List Choice) (i : Instr),
    s.agenda = .issue who ws ok :: rest → decode .txn ws = .ok (i, []) →
    step s = exec i { s with agenda := rest, issuer := who, installOk := ok }) ∧
  (∀ (s : State) (rest : List Choice) (i : Instr),
    s.agenda = .play :: rest → decode .entry [s.cur] = .ok (i, []) → step s = exec i { s with agenda := rest }) ∧
  (∀ (s : State) (rest : List Choice),
    s.agenda = .refill :: rest → step s = exec .refill { s with agenda := rest, issuer := .thr })

/-- With nothing on the agenda the step is that of a free choice among the spec's own steps, or a hold (the model's
choice, log entry 1). -/
def Obligations.EmptyAgendaTakesAFreeChoice : Prop :=
  ∀ s : State, s.agenda = [] →
    step s = .next { s with draws := s.draws + 1 } ∨
    ∃ c : Choice, c.own = true ∧ step s = step { s with draws := s.draws + 1, agenda := [c] }

/-! ## Playback -/

/-- R162 with R165, R166, R111 and R211: what PAIR, BIT0, BIT1 and LATCH do, in each of their cases. That an RP of 2^32 or
more is recorded modulo 2^32 is the model's choice, log entry 26. -/
def Obligations.PairStep : Prop :=
  ∀ (s : State) (i : Instr) (lvl0 lvl1 : Level) (dur0 dur1 : Dur),
    pairHalves i = some (lvl0, dur0, lvl1, dur1) → s.live = true → s.pbRun = true →
    let u := s.played lvl0 dur0 lvl1 dur1
    (entryDur0 u.cur = 0#15 → exec i s = .next u.ended) ∧
    (entryDur0 u.cur ≠ 0#15 → u.raisesThr → u.thrPending = true →
      exec i s = .next (u.raised 4#4 (BitVec.ofNat 32 u.rp))) ∧
    (entryDur0 u.cur ≠ 0#15 → ¬(u.raisesThr ∧ u.thrPending = true) → u.overTime →
      exec i s = .next (u.raised 3#4 (BitVec.ofNat 32 u.elapsed))) ∧
    (entryDur0 u.cur ≠ 0#15 → u.raisesThr → u.thrPending = false → ¬u.overTime →
      exec i s = .next { u with thrPending := true }) ∧
    (entryDur0 u.cur ≠ 0#15 → ¬u.raisesThr → ¬u.overTime → exec i s = .next u)

/-- R164: END1 emits its first half and ends playback; RP does not advance; LVL1 has no effect. -/
def Obligations.End1Step : Prop :=
  ∀ (s : State) (lvl0 lvl1 : Level) (dur0 : Dur), s.live = true → s.pbRun = true →
    exec (.end1 lvl0 dur0 lvl1) s =
      .next { s with
        trace := s.trace ++ [⟨lvl0, dur0.toNat⟩], elapsed := s.elapsed + dur0.toNat, dout := s.par.idleLevel,
        pbRun := false, thrPending := false, done := true }

/-- What a playback step does with an END0 or TERM that it finds in CUR. R162 says that it never finds one there, so the
step is the model's reading, log entry 20: playback ends (R167) and nothing is emitted, as when an END0 is latched (R163,
R174), which PairStep and WriteFixedBlockStep state; LVL0, DUR1 and LVL1 have no effect (R91). -/
def Obligations.End0Step : Prop :=
  ∀ (s : State) (i : Instr), isEnd0 i = true → s.live = true → s.pbRun = true →
    exec i s =
      .next { s with dout := s.par.idleLevel, pbRun := false, thrPending := false, done := true }

/-- R161: without PB_RUN the playback engine has no step. -/
def Obligations.PlaybackHoldsWhenNotRunning : Prop :=
  ∀ (s : State) (rest : List Choice), s.agenda = .play :: rest → s.pbRun = false →
    step s = .next { s with agenda := rest }

/-! ## Host transactions -/

/-- R102: CONFIGURE, in the order of its pseudocode. -/
def Obligations.ConfigureStep : Prop :=
  ∀ (s : State) (h : Nat) (div : BitVec 8),
    s.live = true → s.issuer = .host h → s.hstateAt h = some .idle →
    (s.cfgValid = true → exec (.configure div) s = .next s.marked) ∧
    (s.cfgValid = false → div = 0#8 → exec (.configure div) s = .next (s.raised 1#4 0#32)) ∧
    (s.cfgValid = false → div ≠ 0#8 → s.installOk = false → exec (.configure div) s = .next (s.raised 1#4 1#32)) ∧
    (s.cfgValid = false → div ≠ 0#8 → s.installOk = true →
      exec (.configure div) s = .next { s with div := div, cfgValid := true })

/-- R104: SHOW's issue leaves the host's request waiting and changes nothing else. -/
def Obligations.ShowIssueStep : Prop :=
  ∀ (s : State) (h : Nat) (base len : Word),
    s.live = true → s.issuer = .host h → s.hstateAt h = some .idle → base.toNat < 2 ^ s.par.addrW →
    ∃ hs : List HostState,
      exec (.showFrame base len) s = .next { s with hstate := hs } ∧ hs.length = s.hstate.length ∧
      ∀ k, hs[k]? = if k = h then some (.showReq base len) else s.hstate[k]?

/-- R107, R38: STATUS answers the word of R38 to its host; nothing of the block changes. -/
def Obligations.StatusStep : Prop :=
  ∀ (s : State) (h : Nat), s.live = true → s.issuer = .host h → s.hstateAt h = some .idle →
    ∃ w : Word,
      exec .status s = .next { s with reply := some (h, w) } ∧
      (w.getLsbD 0 = true ↔ ∃ owner, s.lock = .held owner) ∧ w.getLsbD 1 = s.cfgValid ∧ w.getLsbD 2 = s.faulted ∧
      w.getLsbD 3 = false ∧ w.extractLsb' 4 4 = s.faultCode ∧ w.extractLsb' 8 24 = 0#24

/-- R41, R100: a host whose HSTATE is not IDLE takes no step, whatever it would issue or write. -/
def Obligations.BlockedHostHolds : Prop :=
  ∀ (s : State) (h : Nat) (rest : List Choice), s.hstateAt h ≠ some .idle →
    (∀ ws ok, s.agenda = .issue (.host h) ws ok :: rest →
      step s = .next { s with agenda := rest, issuer := .host h, installOk := ok }) ∧
    (∀ a b, s.agenda = .memWrite h a b :: rest → step s = .next { s with agenda := rest })

/-- R42, R72: a host's write is what a later read of that byte answers; every other byte reads as before. -/
def Obligations.HostWriteReadsBack : Prop :=
  ∀ (s : State) (h a : Nat) (b : Byte) (rest : List Choice),
    s.agenda = .memWrite h a b :: rest → s.live = true → s.hstateAt h = some .idle → a < s.par.memSize →
    s.sys.wf = true →
    ∃ m : Memory,
      step s = .next { s with agenda := rest, sys := m } ∧ m.wf = true ∧
      ∀ x, m.read x = if x = a then b else s.sys.read x

/-! ## The controller's operations -/

/-- R112, R113: IRQ_HOOK and IRQ_UNHOOK. -/
def Obligations.HookAndUnhookSteps : Prop :=
  ∀ s : State, s.live = true → s.issuer = .ctl →
    exec .irqHook s = .next { s with rflEn := true } ∧
    exec .irqUnhook s = .next { s with rflEn := false, thrPending := false }

/-- R111: WAIT_DONE makes CTL wait; its operand has no effect (log entry 17). -/
def Obligations.WaitDoneStep : Prop :=
  ∀ (s : State) (timeout : Word), s.live = true → s.issuer = .ctl →
    exec (.waitDone timeout) s = .next { s with ctl := .waiting }

/-- R110, R160: WRITE_FIXED_BLOCK writes its entries from index 0, leaves the others, and starts playback. -/
def Obligations.WriteFixedBlockStep : Prop :=
  ∀ (s : State) (wait : Bool) (e : Word) (es : List Word),
    s.sized → s.live = true → s.issuer = .ctl → (e :: es).length ≤ s.par.nMem →
    (s.pbRun = true → exec (.writeFixedBlock wait (e :: es)) s = .next s.marked) ∧
    (s.pbRun = false →
      ∃ m : PMem,
        m.length = s.par.nMem ∧ (∀ k w, (e :: es)[k]? = some w → m.read k = w) ∧
        (∀ k, (e :: es).length ≤ k → k < s.par.nMem → m.read k = s.pmem.read k) ∧
        (entryDur0 e ≠ 0#15 →
          exec (.writeFixedBlock wait (e :: es)) s =
            .next { s with
              pmem := m, rp := 0, cur := e, elapsed := 0, done := false, thrPending := false, pbRun := true,
              ctl := if wait then .waiting else s.ctl }) ∧
        (entryDur0 e = 0#15 →
          exec (.writeFixedBlock wait (e :: es)) s =
            .next { s with
              pmem := m, rp := 0, cur := e, elapsed := 0, done := true, thrPending := false, pbRun := false,
              dout := s.par.idleLevel, ctl := if wait then .waiting else s.ctl }))

/-- R103: acceptance of a waiting SHOW, in the order of its pseudocode. That a host id of 2^32 or more is recorded modulo
2^32 is the model's choice, log entry 26. -/
def Obligations.AcceptanceStep : Prop :=
  ∀ (s : State) (h : Nat) (base len : Word) (rest : List Choice),
    s.Inv → s.agenda = .accept h :: rest → s.live = true → s.ctl = .idle → s.lock = .free →
    s.hstateAt h = some (.showReq base len) →
    ∃ hs : List HostState, (∀ k, hs[k]? = if k = h then some .showActive else s.hstate[k]?) ∧
      let u : State := { s with agenda := rest, lock := .held h, hstate := hs }
      (s.cfgValid = false → step s = .next (u.raised 2#4 (BitVec.ofNat 32 h))) ∧
      (s.cfgValid = true → s.par.memSize < base.toNat + len.toNat → step s = .next (u.raised 5#4 base)) ∧
      (s.cfgValid = true → base.toNat + len.toNat ≤ s.par.memSize →
        ∃ m : PMem, m.length = s.par.nMem ∧ (∀ k, m.read k = latchEntry s.par) ∧
          step s = .next { u with
            bufBase := base, bufLen := len, pos := 0#32, len := len, txoff := 0, rflEn := true, pmem := m,
            rp := 0, cur := latchEntry s.par, elapsed := 0, done := false, thrPending := false,
            pbRun := true, ctl := .waiting })

/-- R103: where the checks pass, the step that accepts a SHOW takes the lock, sets the session registers and the cursor,
and is then IRQ_HOOK, WRITE_FIXED_BLOCK of the latch block and WAIT_DONE of WAIT_TIMEOUT_UNITS, each as CTL would issue
it. (That WAIT_DONE's operand has no effect, so that a limit of more than 32 bits makes no difference, is log entry 17.) -/
def Obligations.AcceptanceIssuesItsOperations : Prop :=
  ∀ (s : State) (h : Nat) (base len : Word) (rest : List Choice),
    s.Inv → s.agenda = .accept h :: rest → s.live = true → s.ctl = .idle → s.lock = .free →
    s.hstateAt h = some (.showReq base len) → s.cfgValid = true → base.toNat + len.toNat ≤ s.par.memSize →
    ∃ (hs : List HostState) (s1 s2 s3 : State),
      (∀ k, hs[k]? = if k = h then some .showActive else s.hstate[k]?) ∧
      exec .irqHook { s with
        agenda := rest, lock := .held h, hstate := hs, bufBase := base, bufLen := len, pos := 0#32, len := len,
        txoff := 0, issuer := .ctl } = .next s1 ∧
      exec (.writeFixedBlock false (latchBlock s.par)) s1 = .next s2 ∧
      exec (.waitDone (BitVec.ofNat 32 s.par.waitTimeout)) s2 = .next s3 ∧
      step s = .next { s3 with issuer := s.issuer }

/-- R105: completion frees the lock, unhooks the handler, and the owner's SHOW returns. -/
def Obligations.CompletionStep : Prop :=
  ∀ (s : State) (h : Nat) (rest : List Choice),
    s.agenda = .complete :: rest → s.live = true → s.ctl = .waiting → s.done = true → s.lock = .held h →
    h < s.hstate.length →
    ∃ hs : List HostState, (∀ k, hs[k]? = if k = h then some .idle else s.hstate[k]?) ∧
      step s = .next { s with
        agenda := rest, hstate := hs, rflEn := false, thrPending := false, done := false, lock := .free, ctl := .idle }

/-! ## The refill engine -/

/-- R114, R61: MEM_WRITE writes one entry, its offset modulo N_MEM; the latched entry and all else stay. -/
def Obligations.MemWriteStep : Prop :=
  ∀ (s : State) (offset : BitVec 16) (w : Word), s.sized → s.live = true → s.issuer = .rfl →
    ∃ m : PMem,
      exec (.memWrite offset w) s = .next { s with pmem := m } ∧ m.length = s.par.nMem ∧
      m.read offset.toNat = w ∧
      ∀ k, k % s.par.nMem ≠ offset.toNat % s.par.nMem → m.read k = s.pmem.read k

/-- R143, R146, R147, R149, R150: branch A of REFILL. -/
def Obligations.RefillMoreThanAHalf : Prop :=
  ∀ s : State,
    s.sized → s.live = true → s.issuer = .thr → s.thrPending = true → s.rflEn = true → s.par.cap < s.len.toNat →
    s.bufBase.toNat + s.pos.toNat + s.par.cap ≤ s.par.memSize →
    ∃ m : PMem,
      exec .refill s = .next { s with
        pmem := m, pos := s.pos + BitVec.ofNat 32 s.par.cap, len := s.len - BitVec.ofNat 32 s.par.cap,
        txoff := if s.txoff = 0 then s.par.half else 0, thrPending := false } ∧
      m.length = s.par.nMem ∧
      (∀ k < s.par.cap, ∀ j < 8,
        m.read (s.txoff + 8 * k + j) =
          bitEntry s.par ((s.sys.read (s.bufBase.toNat + s.pos.toNat + k)).getLsbD (7 - j))) ∧
      (∀ x, (∀ k < s.par.half, x % s.par.nMem ≠ (s.txoff + k) % s.par.nMem) → m.read x = s.pmem.read x)

/-- R144, R146, R150: branch B of REFILL. -/
def Obligations.RefillNothingLeft : Prop :=
  ∀ s : State,
    s.sized → s.live = true → s.issuer = .thr → s.thrPending = true → s.rflEn = true → s.len = 0#32 →
    ∃ m : PMem,
      exec .refill s = .next { s with
        pmem := m, txoff := if s.txoff = 0 then s.par.half else 0, thrPending := false } ∧
      m.length = s.par.nMem ∧ m.read s.txoff = 0x00000000#32 ∧
      ∀ x, x % s.par.nMem ≠ s.txoff % s.par.nMem → m.read x = s.pmem.read x

/-- R145, R146, R147, R149, R150: branch C of REFILL, its terminator's index modulo N_MEM. -/
def Obligations.RefillPartialRemainder : Prop :=
  ∀ s : State,
    s.sized → s.live = true → s.issuer = .thr → s.thrPending = true → s.rflEn = true → s.len ≠ 0#32 →
    s.len.toNat ≤ s.par.cap → s.bufBase.toNat + s.pos.toNat + s.len.toNat ≤ s.par.memSize →
    ∃ m : PMem,
      exec .refill s = .next { s with
        pmem := m, len := 0#32, txoff := if s.txoff = 0 then s.par.half else 0,
        thrPending := false } ∧
      m.length = s.par.nMem ∧
      (∀ k < s.len.toNat, ∀ j < 8,
        m.read (s.txoff + 8 * k + j) =
          bitEntry s.par ((s.sys.read (s.bufBase.toNat + s.pos.toNat + k)).getLsbD (7 - j))) ∧
      m.read (s.txoff + 8 * s.len.toNat) = 0x00000000#32 ∧
      (∀ x, (∀ k ≤ 8 * s.len.toNat, x % s.par.nMem ≠ (s.txoff + k) % s.par.nMem) → m.read x = s.pmem.read x)

/-- R140: without a pending, hooked event the refill engine has no step. -/
def Obligations.RefillHoldsWithoutAnEvent : Prop :=
  ∀ (s : State) (rest : List Choice),
    s.agenda = .refill :: rest → (s.thrPending = false ∨ s.rflEn = false) →
    step s = .next { s with agenda := rest, issuer := .thr }

/-- R83, R84, R85, R86: the words of the entries the block writes, with the default parameters. -/
def Obligations.BlockEntryWords : Prop :=
  bitEntry {} false = 0x00078004#32 ∧ bitEntry {} true = 0x00068008#32 ∧ latchEntry {} = 0x00040004#32 ∧
  encode .bit0 = [0x00078004#32] ∧ encode .bit1 = [0x00068008#32] ∧ encode .latch = [0x00040004#32] ∧
  encode .term = [0x00000000#32] ∧
  (∀ p : Params, (latchEntry p).toNat = p.latchD.toNat * 2 ^ 16 + p.latchD.toNat)

/-! ## Reserved codes -/

/-- R90: a reserved operation code is refused, whoever issues it, with no other state change. -/
def Obligations.ReservedCodeIsRefused : Prop :=
  ∀ (s : State) (i : Instr), isReserved i = true → s.canIssue = true → exec i s = .next s.marked

/-! ## The whole machine -/

/-- R44: the values after a reset, whatever the parameters (the number of hosts among them) and system memory. PMEM has
N_MEM entries, of which nothing is said. -/
def Obligations.ResetValues : Prop :=
  ∀ (par : Params) (sys : Memory) (agenda : List Choice) (draws : Nat),
    let s := State.powerOn par sys agenda draws
    s.pos = 0#32 ∧ s.len = 0#32 ∧ s.txoff = 0 ∧ s.rp = 0 ∧ s.cur = 0#32 ∧ s.pbRun = false ∧ s.elapsed = 0 ∧
    s.dout = par.idleLevel ∧ s.thrPending = false ∧ s.done = false ∧ s.rflEn = false ∧ s.div = 0#8 ∧ s.cfgValid = false ∧
    s.bufBase = 0#32 ∧ s.bufLen = 0#32 ∧ s.lock = .free ∧ s.ctl = .idle ∧ s.faulted = false ∧ s.faultCode = 0#4 ∧
    s.faultInfo = 0#32 ∧ s.refused = false ∧ s.trace = [] ∧ s.hstate = List.replicate par.kHosts .idle ∧
    s.pmem.length = par.nMem

/-- R230: the reset event may come in any state; it leaves a reset state of the same machine, with system memory as it
was. -/
def Obligations.ResetEventStep : Prop :=
  ∀ (s : State) (rest : List Choice), s.agenda = .reset :: rest →
    step s = .next (State.powerOn s.par s.sys rest s.draws)

/-- R231: right after reset no agent but a host has a step (a refill choice only names the threshold event as the one on
the port, a field of the model's own); the STATUS word is 0. -/
def Obligations.AfterResetOnlyHostsStep : Prop :=
  ∀ (par : Params) (sys : Memory) (draws : Nat) (rest : List Choice),
    (∀ c : Choice, (c = .play ∨ c = .complete ∨ ∃ h, c = .accept h) →
      step (State.powerOn par sys (c :: rest) draws) = .next (State.powerOn par sys rest draws)) ∧
    step (State.powerOn par sys (.refill :: rest) draws) =
      .next { State.powerOn par sys rest draws with issuer := .thr } ∧
    (State.powerOn par sys rest draws).statusWord = 0x00000000#32

/-- R206, R207, R14: once a fault or a refusal has happened no agent has a step; only reset changes the block. -/
def Obligations.HaltedMachineHolds : Prop :=
  ∀ (s : State) (c : Choice) (rest : List Choice),
    s.live = false → s.agenda = c :: rest → c ≠ .reset →
    ∃ (who : Issuer) (ok : Bool), step s = .next { s with agenda := rest, issuer := who, installOk := ok }

/-- R200, R206: a step that takes a fault leaves one of the table's five codes, the line idle, playback and refill off;
PMEM, the cursor and CTL_STATE are as before, and the earlier output stays. -/
def Obligations.FaultEntry : Prop :=
  ∀ (s t : State), s.Inv → s.faulted = false → step s = .next t → t.faulted = true →
    t.faultCode ∈ [1#4, 2#4, 3#4, 4#4, 5#4] ∧ t.pbRun = false ∧ t.dout = t.par.idleLevel ∧ t.rflEn = false ∧
    t.thrPending = false ∧ t.pmem = s.pmem ∧ t.pos = s.pos ∧ t.len = s.len ∧ t.txoff = s.txoff ∧ t.ctl = s.ctl ∧
    s.trace <+: t.trace

/-- R34, R77: the lock is taken only by the acceptance of its owner's request while it is free, and given back only by
completion or reset. -/
def Obligations.LockDiscipline : Prop :=
  ∀ (s t : State) (c : Choice) (rest : List Choice), s.agenda = c :: rest → c.own = true → step s = .next t →
    (∀ h, s.lock = .held h → t.lock = .held h ∨ c = .complete ∧ s.done = true ∧ t.lock = .free ∨ c = .reset) ∧
    (∀ h, s.lock = .free → t.lock = .held h → c = .accept h ∧ ∃ base len, s.hstateAt h = some (.showReq base len))

/-- R23, R236: the cursor is written only by SHOW acceptance and by the refill (and by reset). -/
def Obligations.CursorWriters : Prop :=
  ∀ (s t : State) (c : Choice) (rest : List Choice), s.agenda = c :: rest → c.own = true → step s = .next t →
    (∀ h, c ≠ .accept h) → c ≠ .refill → c ≠ .reset → t.pos = s.pos ∧ t.len = s.len ∧ t.txoff = s.txoff

/-- R239: once configured, the divider and CFG_VALID never change but by reset. -/
def Obligations.ConfigurationIsStable : Prop :=
  ∀ (s t : State) (c : Choice) (rest : List Choice), s.agenda = c :: rest → c ≠ .reset → step s = .next t →
    s.cfgValid = true → t.cfgValid = true ∧ t.div = s.div

/-- R43: no step changes a parameter; there stay K_HOSTS hosts and N_MEM entries. -/
def Obligations.ParametersNeverChange : Prop :=
  ∀ s t : State, step s = .next t →
    t.par = s.par ∧ (s.hstate.length = s.par.kHosts → t.hstate.length = s.par.kHosts) ∧
    (s.pmem.length = s.par.nMem → t.pmem.length = s.par.nMem)

/-- R40, R169, R170: only a playback step appends to TRACE, and ELAPSED grows by what it appends. -/
def Obligations.OnlyPlaybackEmits : Prop :=
  ∀ (s t : State) (c : Choice) (rest : List Choice), s.agenda = c :: rest → step s = .next t → c ≠ .reset →
    (c ≠ .play → t.trace = s.trace) ∧
    (c = .play → ∃ segs : List Segment, segs.length ≤ 2 ∧ t.trace = s.trace ++ segs ∧
      t.elapsed = s.elapsed + unitsOf segs)

/-- R90, R237, R72: a host's choice changes neither the pulse memory, the playback state, the event flags, the cursor, the
session registers, the lock, CTL_STATE nor the output, nor another host's HSTATE. (PB_RUN, RFL_EN, THR_PENDING and DOUT are
written by a CONFIGURE that faults, R206, but in a state of the invariant they have those values already.) No other agent's
step, nor a reset, changes system memory. -/
def Obligations.HostsAndBlockKeepApart : Prop :=
  ∀ (s t : State) (c : Choice) (rest : List Choice), s.agenda = c :: rest → step s = .next t →
    (∀ h, (∃ ws ok, c = .issue (.host h) ws ok) ∨ (∃ a b, c = .memWrite h a b) →
      t.pmem = s.pmem ∧ t.rp = s.rp ∧ t.cur = s.cur ∧ t.pos = s.pos ∧ t.len = s.len ∧ t.txoff = s.txoff ∧
      t.lock = s.lock ∧ t.ctl = s.ctl ∧ t.bufBase = s.bufBase ∧ t.bufLen = s.bufLen ∧ t.trace = s.trace ∧
      t.elapsed = s.elapsed ∧ t.done = s.done ∧ (∀ k, k ≠ h → t.hstateAt k = s.hstateAt k) ∧
      (s.Inv →
        t.pbRun = s.pbRun ∧ t.rflEn = s.rflEn ∧ t.thrPending = s.thrPending ∧ t.dout = s.dout)) ∧
    ((∀ h a b, c ≠ .memWrite h a b) → t.sys = s.sys)

/-- No spec step stops the machine but a host's write to a byte that does not exist: in particular no refill does
(R142). -/
def Obligations.SpecStepsDoNotStop : Prop :=
  ∀ (s : State) (c : Choice) (rest : List Choice), s.Inv → s.agenda = c :: rest →
    (∃ t, step s = .next t) ∨
    ∃ h a b, c = .memWrite h a b ∧ s.par.memSize ≤ a ∧ step s = .fault (.noSuchAddress a)

/-- The invariant holds after a reset of any machine whose parameters meet the spec's constraints. -/
def Obligations.InvariantAtReset : Prop :=
  State.reset.Inv ∧
  ∀ (par : Params) (sys : Memory) (draws : Nat),
    par.wf = true → sys.wf = true → (State.powerOn par sys [] draws).Inv

/-- Every step of every agent keeps the invariant: R22, R28, R32, R34, R35, R36, R94, R151, R163, R238. -/
def Obligations.EveryStepKeepsTheInvariant : Prop :=
  ∀ s t : State, s.Inv → step s = .next t → t.Inv

/-- R161, R222: while playback runs its step is enabled and adds time; while it goes on the limit is not passed. -/
def Obligations.PlaybackMakesProgress : Prop :=
  ∀ (s : State) (rest : List Choice), s.Inv → s.live = true → s.pbRun = true → s.agenda = .play :: rest →
    ∃ t : State, step s = .next t ∧ s.elapsed < t.elapsed ∧ (t.pbRun = true → t.elapsed ≤ t.par.waitTimeout)

/-- R234: a threshold event raised at a half boundary and not served lets H - 1 further PB steps run (31 with N_MEM = 64);
the H-th, which crosses again, faults Underrun with RP. The entries of PMEM are all pairs and the time limit is
far. That an RP of 2^32 or more is recorded modulo 2^32 is the model's choice, log entry 26. -/
def Obligations.RefillDeadline : Prop :=
  ∀ (s : State) (rest : List Choice),
    s.sized → s.live = true → s.pbRun = true → s.rflEn = true → s.thrPending = true →
    (s.rp = 0 ∨ s.rp = s.par.half) →
    entryDur0 s.cur ≠ 0#15 → entryDur1 s.cur ≠ 0#15 →
    (∀ k, entryDur0 (s.pmem.read k) ≠ 0#15 ∧ entryDur1 (s.pmem.read k) ≠ 0#15) →
    s.elapsed + s.par.half * 65534 ≤ s.par.waitTimeout →
    s.agenda = List.replicate s.par.half .play ++ rest →
    ∃ t u : State,
      Host.Core.run Sys2Proof.core (s.par.half - 1) s = .next t ∧ t.live = true ∧ t.pbRun = true ∧
      Host.Core.run Sys2Proof.core s.par.half s = .next u ∧ u.faulted = true ∧ u.faultCode = 4#4 ∧
      u.faultInfo = BitVec.ofNat 32 (if s.rp = 0 then s.par.half else 0)

/-! ## Frames -/

/-- R180: whatever the order of the steps, a frame that reaches DONE without a fault, a refusal or a host write into its
buffer has appended exactly FRAME of the buffer's bytes at acceptance to TRACE; ELAPSED is its length. -/
def Obligations.FrameWaveform : Prop :=
  ∀ (s t : State) (h : Nat) (base len : Word) (es rest : List Choice),
    s.Inv → s.live = true → s.ctl = .idle → s.lock = .free → s.hstateAt h = some (.showReq base len) →
    s.cfgValid = true → base.toNat + len.toNat ≤ s.par.memSize →
    s.agenda = .accept h :: (es ++ rest) → (∀ c ∈ es, keepsFrame base len c = true) →
    Host.Core.run Sys2Proof.core (es.length + 1) s = .next t → t.live = true → t.done = true →
    t.trace = s.trace ++ frame s.par (s.bufferBytes base len) ∧
    t.elapsed = unitsOf (frame s.par (s.bufferBytes base len))

/-- R222, R243, R105: every waiting frame can be sent: some order of steps leads from its acceptance to DONE without a
fault where the time limit is at least the frame's length, and completion then returns the SHOW. -/
def Obligations.EveryFrameCanComplete : Prop :=
  ∀ (s : State) (h : Nat) (base len : Word),
    s.Inv → s.live = true → s.ctl = .idle → s.lock = .free → s.hstateAt h = some (.showReq base len) →
    s.cfgValid = true → base.toNat + len.toNat ≤ s.par.memSize →
    unitsOf (frame s.par (s.bufferBytes base len)) ≤ s.par.waitTimeout →
    ∃ (es : List Choice) (t : State),
      (∀ c ∈ es, keepsFrame base len c = true) ∧
      Host.Core.run Sys2Proof.core (es.length + 2) { s with agenda := .accept h :: (es ++ [.complete]) } = .next t ∧
      t.live = true ∧ t.lock = .free ∧ t.ctl = .idle ∧ t.hstateAt h = some .idle ∧
      t.trace = s.trace ++ frame s.par (s.bufferBytes base len)

/-- R181: a frame of L bytes with O one bits has the two segments of each of LATCH_LEN + 8 L entries and lasts
2 LATCH_LEN LATCH_D + (8 L - O) (T0H + T0L) + O (T1H + T1L) base units: with the default parameters
512 + 11 (8 L - O) + 14 O, and so between 512 + 88 L and 512 + 112 L. -/
def Obligations.FrameLength : Prop :=
  (∀ (p : Params) (bs : List Byte),
    (frame p bs).length = 2 * (p.latchLen + 8 * bs.length) ∧
    unitsOf (frame p bs) =
      2 * p.latchLen * p.latchD.toNat + (8 * bs.length - onesOf bs) * (p.t0h.toNat + p.t0l.toNat) +
        onesOf bs * (p.t1h.toNat + p.t1l.toNat)) ∧
  ∀ bs : List Byte,
    unitsOf (frame {} bs) = 512 + 11 * (8 * bs.length - onesOf bs) + 14 * onesOf bs ∧
    512 + 88 * bs.length ≤ unitsOf (frame {} bs) ∧ unitsOf (frame {} bs) ≤ 512 + 112 * bs.length

/-- R65: where a SHOW's buffer holds a list of pixels of one pixelWidth, 3 without white and 4 with it, its length is
pixelCount × pixelWidth; pixel `i` has its green byte at `i × pixelWidth`, red, blue and white following; and the frame
(R180) carries the pixels in order, each as green, red, blue and, where there is one, white. -/
def Obligations.PixelPlacement : Prop :=
  ∀ (s : State) (base len : Word) (width : Nat) (pixels : List Pixel),
    (width = 3 ∧ (∀ px ∈ pixels, px.white = none)) ∨ (width = 4 ∧ (∀ px ∈ pixels, px.white.isSome = true)) →
    s.bufferBytes base len = pixelBuffer pixels →
    len.toNat = pixels.length * width ∧
    (∀ i px, pixels[i]? = some px →
      s.sys.read (base.toNat + i * width) = px.green ∧ s.sys.read (base.toNat + i * width + 1) = px.red ∧
      s.sys.read (base.toNat + i * width + 2) = px.blue ∧
      ∀ w, px.white = some w → s.sys.read (base.toNat + i * width + 3) = w) ∧
    frame s.par (s.bufferBytes base len) =
      latchBlockSegments s.par ++
        pixels.flatMap fun px =>
          dataSegments s.par [px.green] ++ dataSegments s.par [px.red] ++ dataSegments s.par [px.blue] ++
            px.white.toList.flatMap fun w => dataSegments s.par [w]

/-- R32: the fields of the configuration register CONF. -/
def Obligations.ConfFields : Prop :=
  ∀ s : State,
    s.confWord.extractLsb' 0 8 = s.div ∧ s.confWord.getLsbD 8 = s.cfgValid ∧ s.confWord.extractLsb' 9 23 = 0#23
end

