-- ==== Sys2Proof/Laws/Encoding.lean ====
section
/-! SUPPORT. Fields of built words: each field of a built word reads back, and a word is built of its fields. -/

namespace Sys2Proof

/-- Bit `i` of a word as arithmetic. -/
theorem getLsbD_eq_div_mod (w : Word) (i : Nat) : w.getLsbD i = decide (w.toNat / 2 ^ i % 2 = 1) := by
  rw [BitVec.getLsbD, Nat.testBit_eq_decide_div_mod_eq]

theorem entryDur0_toNat (w : Word) : (entryDur0 w).toNat = w.toNat % 2 ^ 15 := by
  simp [entryDur0, BitVec.extractLsb'_toNat]

theorem entryDur1_toNat (w : Word) : (entryDur1 w).toNat = w.toNat / 2 ^ 16 % 2 ^ 15 := by
  simp [entryDur1, BitVec.extractLsb'_toNat, Nat.shiftRight_eq_div_pow]

theorem hdrOp_toNat (w : Word) : (hdrOp w).toNat = w.toNat % 2 ^ 4 := by
  simp [hdrOp, BitVec.extractLsb'_toNat]

theorem hdrUpper_toNat (w : Word) : (hdrUpper w).toNat = w.toNat / 2 ^ 4 % 2 ^ 28 := by
  simp [hdrUpper, BitVec.extractLsb'_toNat, Nat.shiftRight_eq_div_pow]

theorem mkEntry_toNat (l0 : Level) (d0 : Dur) (l1 : Level) (d1 : Dur) :
    (mkEntry l0 d0 l1 d1).toNat = l1.toNat * 2 ^ 31 + d1.toNat * 2 ^ 16 + l0.toNat * 2 ^ 15 + d0.toNat := by
  rw [mkEntry, BitVec.toNat_ofNat, Nat.mod_eq_of_lt]
  have h0 := d0.isLt
  have h1 := d1.isLt
  cases l0 <;> cases l1 <;> simp <;> omega

theorem mkHdr_toNat (u : BitVec 28) (op : BitVec 4) : (mkHdr u op).toNat = u.toNat * 2 ^ 4 + op.toNat := by
  rw [mkHdr, BitVec.toNat_ofNat, Nat.mod_eq_of_lt]
  have h0 := u.isLt
  have h1 := op.isLt
  omega

@[simp] theorem entryDur0_mkEntry (l0 : Level) (d0 : Dur) (l1 : Level) (d1 : Dur) :
    entryDur0 (mkEntry l0 d0 l1 d1) = d0 := by
  apply BitVec.eq_of_toNat_eq
  rw [entryDur0_toNat, mkEntry_toNat]
  have h0 := d0.isLt
  have h1 := d1.isLt
  cases l0 <;> cases l1 <;> simp <;> omega

@[simp] theorem entryDur1_mkEntry (l0 : Level) (d0 : Dur) (l1 : Level) (d1 : Dur) :
    entryDur1 (mkEntry l0 d0 l1 d1) = d1 := by
  apply BitVec.eq_of_toNat_eq
  rw [entryDur1_toNat, mkEntry_toNat]
  have h0 := d0.isLt
  have h1 := d1.isLt
  cases l0 <;> cases l1 <;> simp <;> omega

@[simp] theorem entryLvl0_mkEntry (l0 : Level) (d0 : Dur) (l1 : Level) (d1 : Dur) :
    entryLvl0 (mkEntry l0 d0 l1 d1) = l0 := by
  rw [entryLvl0, getLsbD_eq_div_mod, mkEntry_toNat]
  have h0 := d0.isLt
  have h1 := d1.isLt
  cases l0 <;> cases l1 <;> simp <;> omega

@[simp] theorem entryLvl1_mkEntry (l0 : Level) (d0 : Dur) (l1 : Level) (d1 : Dur) :
    entryLvl1 (mkEntry l0 d0 l1 d1) = l1 := by
  rw [entryLvl1, getLsbD_eq_div_mod, mkEntry_toNat]
  have h0 := d0.isLt
  have h1 := d1.isLt
  cases l0 <;> cases l1 <;> simp <;> omega

/-- A word is built of its four fields (R80, R81). -/
theorem mkEntry_of_fields (w : Word) :
    mkEntry (entryLvl0 w) (entryDur0 w) (entryLvl1 w) (entryDur1 w) = w := by
  apply BitVec.eq_of_toNat_eq
  rw [mkEntry_toNat, entryDur0_toNat, entryDur1_toNat, entryLvl0, entryLvl1, getLsbD_eq_div_mod, getLsbD_eq_div_mod]
  have h := w.isLt
  by_cases h0 : w.toNat / 2 ^ 15 % 2 = 1 <;> by_cases h1 : w.toNat / 2 ^ 31 % 2 = 1 <;>
    simp only [h0, h1, decide_true, decide_false, Bool.toNat_true, Bool.toNat_false] <;> omega

@[simp] theorem hdrOp_mkHdr (u : BitVec 28) (op : BitVec 4) : hdrOp (mkHdr u op) = op := by
  apply BitVec.eq_of_toNat_eq
  rw [hdrOp_toNat, mkHdr_toNat]
  have h1 := op.isLt
  omega

@[simp] theorem hdrUpper_mkHdr (u : BitVec 28) (op : BitVec 4) : hdrUpper (mkHdr u op) = u := by
  apply BitVec.eq_of_toNat_eq
  rw [hdrUpper_toNat, mkHdr_toNat]
  have h0 := u.isLt
  have h1 := op.isLt
  omega

/-- A header is built of its two fields (R87). -/
theorem mkHdr_of_fields (w : Word) : mkHdr (hdrUpper w) (hdrOp w) = w := by
  apply BitVec.eq_of_toNat_eq
  rw [mkHdr_toNat, hdrUpper_toNat, hdrOp_toNat]
  have h := w.isLt
  omega

/-- Each named word is the entry of its fields (R83 to R86). -/
theorem wordBit0_fields : wordBit0 = mkEntry true 4#15 false 7#15 := by decide

theorem wordBit1_fields : wordBit1 = mkEntry true 8#15 false 6#15 := by decide

theorem wordLatch_fields : wordLatch = mkEntry false 4#15 false 4#15 := by decide

theorem wordTerm_fields : wordTerm = mkEntry false 0#15 false 0#15 := by decide

/-- What the argument decoder answers is a transaction. -/
theorem decodeArgs_lang {op : BitVec 4} {args rest : List Word} {i : Instr}
    (h : decodeArgs op args = .ok (i, rest)) : i.lang = .txn := by
  unfold decodeArgs at h
  repeat' split at h
  all_goals first
    | (injection h with h; injection h with h1 h2; subst h1; rfl)
    | cases h

/-- What the transaction decoder answers is a transaction (R87). -/
theorem decodeTxn_lang {ws rest : List Word} {i : Instr} (h : decodeTxn ws = .ok (i, rest)) : i.lang = .txn := by
  cases ws with
  | nil => cases h
  | cons hdr args =>
    unfold decodeTxn at h
    repeat' split at h
    all_goals first
      | (injection h with h; injection h with h1 h2; subst h1; rfl)
      | exact decodeArgs_lang h
      | cases h

end Sys2Proof
end

