-- ==== Sys2Proof/Laws/Memory.lean ====
section
/-! SUPPORT. System memory: read after write, and every operation keeps the canonical form. Pulse memory: read after
one write and after many. -/

namespace Sys2Proof.Machine

/-! ## System memory -/

theorem Memory.read_below {lo : Nat} {m : Memory} (h : Memory.wfFrom lo m = true) {a : Nat} (ha : a < lo) :
    Memory.read m a = Memory.unlisted := by
  induction m generalizing lo with
  | nil => rfl
  | cons c rest ih =>
    obtain ⟨k, v⟩ := c
    simp only [Memory.wfFrom, Bool.and_eq_true, decide_eq_true_eq] at h
    have hk : k ≠ a := by omega
    simp only [Memory.read, if_neg hk]
    exact ih h.2 (by omega)

theorem Memory.wfFrom_mono {lo lo' : Nat} {m : Memory} (h : Memory.wfFrom lo m = true) (hl : lo' ≤ lo) :
    Memory.wfFrom lo' m = true := by
  cases m with
  | nil => rfl
  | cons c rest =>
    obtain ⟨k, v⟩ := c
    simp only [Memory.wfFrom, Bool.and_eq_true, decide_eq_true_eq] at h ⊢
    exact ⟨⟨by omega, h.1.2⟩, h.2⟩

/-- A write keeps the canonical form. -/
theorem Memory.write_wfFrom {lo : Nat} {m : Memory} (h : Memory.wfFrom lo m = true) {a : Nat} (ha : lo ≤ a) (b : Byte) :
    Memory.wfFrom lo (Memory.write m a b) = true := by
  induction m generalizing lo with
  | nil =>
    by_cases hb : b = Memory.unlisted
    · simp [Memory.write, hb, Memory.wfFrom]
    · simp [Memory.write, hb, Memory.wfFrom, ha]
  | cons c rest ih =>
    obtain ⟨k, v⟩ := c
    have h' := h
    simp only [Memory.wfFrom, Bool.and_eq_true, decide_eq_true_eq, bne_iff_ne, ne_eq] at h'
    obtain ⟨⟨h1, h2⟩, h3⟩ := h'
    rcases Nat.lt_trichotomy k a with hk | hk | hk
    · simp only [Memory.write, if_pos hk, Memory.wfFrom, Bool.and_eq_true, decide_eq_true_eq, bne_iff_ne, ne_eq]
      exact ⟨⟨h1, h2⟩, ih h3 (by omega)⟩
    · subst hk
      by_cases hb : b = Memory.unlisted
      · simp only [Memory.write, Nat.lt_irrefl, if_false, if_true, if_pos hb]
        exact Memory.wfFrom_mono h3 (by omega)
      · simp [Memory.write, hb, Memory.wfFrom, ha, h3]
    · have h4 : ¬ k < a := by omega
      have h5 : ¬ k = a := by omega
      by_cases hb : b = Memory.unlisted
      · simp only [Memory.write, if_neg h4, if_neg h5, if_pos hb]
        exact h
      · simp only [Memory.write, if_neg h4, if_neg h5, if_neg hb, Memory.wfFrom, Bool.and_eq_true, decide_eq_true_eq,
          bne_iff_ne, ne_eq]
        exact ⟨⟨ha, hb⟩, ⟨by omega, h2⟩, h3⟩

/-- A write keeps the canonical form. -/
theorem Memory.write_wf {m : Memory} (h : m.wf = true) (a : Nat) (b : Byte) : (m.write a b).wf = true :=
  Memory.write_wfFrom h (Nat.zero_le a) b

theorem Memory.read_write_from {lo : Nat} {m : Memory} (h : Memory.wfFrom lo m = true) (a : Nat) (b : Byte) (c : Nat) :
    Memory.read (Memory.write m a b) c = if c = a then b else Memory.read m c := by
  induction m generalizing lo with
  | nil =>
    by_cases hb : b = Memory.unlisted
    · simp [Memory.write, Memory.read, hb]
    · simp only [Memory.write, if_neg hb, Memory.read, eq_comm]
  | cons d rest ih =>
    obtain ⟨k, v⟩ := d
    simp only [Memory.wfFrom, Bool.and_eq_true, decide_eq_true_eq] at h
    rcases Nat.lt_trichotomy k a with hk | hk | hk
    · simp only [Memory.write, if_pos hk, Memory.read, ih h.2]
      by_cases h1 : k = c
      · have h2 : c ≠ a := by omega
        simp [h1, h2]
      · simp [h1]
    · subst hk
      by_cases hb : b = Memory.unlisted
      · simp only [Memory.write, Nat.lt_irrefl, if_false, if_true, if_pos hb, Memory.read]
        by_cases h1 : c = k
        · subst h1
          simp only [if_true, hb]
          exact Memory.read_below h.2 (by omega)
        · simp [h1, Ne.symm h1]
      · simp only [Memory.write, Nat.lt_irrefl, if_false, if_true, if_neg hb, Memory.read]
        by_cases h1 : c = k <;> simp [h1, eq_comm]
    · have h4 : ¬ k < a := by omega
      have h5 : ¬ k = a := by omega
      by_cases hb : b = Memory.unlisted
      · simp only [Memory.write, if_neg h4, if_neg h5, if_pos hb, Memory.read]
        by_cases h1 : c = a
        · subst h1
          simp only [if_true, hb, if_neg h5]
          exact Memory.read_below h.2 (by omega)
        · simp [h1]
      · simp only [Memory.write, if_neg h4, if_neg h5, if_neg hb, Memory.read]
        by_cases h1 : c = a
        · simp [h1]
        · simp [h1, Ne.symm h1]

/-- What a byte reads as after a write. -/
theorem Memory.read_write {m : Memory} (h : m.wf = true) (a : Nat) (b : Byte) (c : Nat) :
    (m.write a b).read c = if c = a then b else m.read c :=
  Memory.read_write_from h a b c

/-- A read of bytes that all exist answers them. -/
theorem State.memReads_ok (s : State) (a n : Nat) (h : a + n ≤ s.par.memSize) :
    s.memReads a n = .ok ((List.range' a n).map s.sys.read) := by
  induction n generalizing a with
  | zero => simp [State.memReads]
  | succ n ih =>
    have h1 : a < s.par.memSize := by omega
    simp [State.memReads, State.memRead, h1, ih (a + 1) (by omega), List.range'_succ]

/-! ## Pulse memory -/

@[simp] theorem PMem.length_write (m : PMem) (i : Nat) (w : Word) : (m.write i w).length = m.length := by
  simp [PMem.write]

@[simp] theorem PMem.length_writeMany (m : PMem) (i : Nat) (ws : List Word) : (m.writeMany i ws).length = m.length := by
  induction ws generalizing m i with
  | nil => rfl
  | cons w ws ih => rw [PMem.writeMany, ih, PMem.length_write]

@[simp] theorem length_freshPmem (nMem n : Nat) : (freshPmem nMem n).length = nMem := by
  simp [freshPmem]

/-- An index counts modulo N_MEM (R61). -/
theorem PMem.read_mod (m : PMem) (i : Nat) : m.read (i % m.length) = m.read i := by
  simp only [PMem.read, Nat.mod_mod]

/-- What an entry reads as after a write (R61). -/
theorem PMem.read_write {m : PMem} (hm : 0 < m.length) (i : Nat) (w : Word) (j : Nat) :
    (m.write i w).read j = if j % m.length = i % m.length then w else m.read j := by
  have hj := Nat.mod_lt j hm
  by_cases h : j % m.length = i % m.length
  · simp [PMem.read, PMem.write, h, Nat.mod_lt i hm]
  · simp [PMem.read, PMem.write, h, Ne.symm h]

/-- Writing many entries leaves an entry alone that is none of theirs. -/
theorem PMem.read_writeMany_other {m : PMem} (hm : 0 < m.length) (i : Nat) (ws : List Word) (j : Nat)
    (h : ∀ k < ws.length, j % m.length ≠ (i + k) % m.length) :
    (m.writeMany i ws).read j = m.read j := by
  induction ws generalizing m i with
  | nil => rfl
  | cons w ws ih =>
    rw [PMem.writeMany, ih (by simpa using hm), PMem.read_write hm, if_neg]
    · simpa using h 0 (by simp)
    · intro k hk
      have := h (k + 1) (by simpa using hk)
      rwa [PMem.length_write, show i + 1 + k = i + (k + 1) by omega]

/-- Indexes less than N_MEM apart name different entries (R61). -/
theorem mod_ne_mod_add {n : Nat} (i d : Nat) (h0 : 0 < d) (hd : d < n) : i % n ≠ (i + d) % n := by
  intro h
  have h1 : i + d ≡ i + 0 [MOD n] := h.symm
  have h2 := Nat.ModEq.add_left_cancel' i h1
  rw [Nat.ModEq, Nat.mod_eq_of_lt hd, Nat.zero_mod] at h2
  omega

/-- Writing at most N_MEM entries from `i` on puts each at its own index (R110, R147). -/
theorem PMem.read_writeMany (m : PMem) (i : Nat) (ws : List Word) (hlen : ws.length ≤ m.length) (k : Nat)
    (hk : k < ws.length) : (m.writeMany i ws).read (i + k) = ws[k] := by
  induction ws generalizing m i k with
  | nil => simp at hk
  | cons w ws ih =>
    rw [PMem.writeMany]
    simp only [List.length_cons] at hlen hk
    cases k with
    | zero =>
      rw [PMem.read_writeMany_other (by simp only [PMem.length_write]; omega),
        PMem.read_write (by omega), if_pos (by rw [Nat.add_zero])]
      · rfl
      · intro k hk'
        rw [PMem.length_write, Nat.add_zero, show i + 1 + k = i + (k + 1) by omega]
        exact mod_ne_mod_add i (k + 1) (by omega) (by omega)
    | succ k =>
      rw [show i + (k + 1) = i + 1 + k by omega, ih _ _ (by simp only [PMem.length_write]; omega) k (by omega)]
      simp

end Sys2Proof.Machine
end

