-- ==== Sys2Proof/Laws/State.lean ====
section
/-! SUPPORT. What each shared update of the state does to each field, true by rfl. -/

namespace Sys2Proof.Machine

/-! ## `State.emit` -/

@[simp] theorem State.emit_par (s : State) (l : Level) (d : Dur) : (s.emit l d).par = s.par := rfl
@[simp] theorem State.emit_pos (s : State) (l : Level) (d : Dur) : (s.emit l d).pos = s.pos := rfl
@[simp] theorem State.emit_len (s : State) (l : Level) (d : Dur) : (s.emit l d).len = s.len := rfl
@[simp] theorem State.emit_txoff (s : State) (l : Level) (d : Dur) : (s.emit l d).txoff = s.txoff := rfl
@[simp] theorem State.emit_rp (s : State) (l : Level) (d : Dur) : (s.emit l d).rp = s.rp := rfl
@[simp] theorem State.emit_cur (s : State) (l : Level) (d : Dur) : (s.emit l d).cur = s.cur := rfl
@[simp] theorem State.emit_pbRun (s : State) (l : Level) (d : Dur) : (s.emit l d).pbRun = s.pbRun := rfl
@[simp] theorem State.emit_elapsed (s : State) (l : Level) (d : Dur) : (s.emit l d).elapsed = s.elapsed + d.toNat := rfl
@[simp] theorem State.emit_dout (s : State) (l : Level) (d : Dur) : (s.emit l d).dout = l := rfl
@[simp] theorem State.emit_thrPending (s : State) (l : Level) (d : Dur) : (s.emit l d).thrPending = s.thrPending := rfl
@[simp] theorem State.emit_done (s : State) (l : Level) (d : Dur) : (s.emit l d).done = s.done := rfl
@[simp] theorem State.emit_rflEn (s : State) (l : Level) (d : Dur) : (s.emit l d).rflEn = s.rflEn := rfl
@[simp] theorem State.emit_div (s : State) (l : Level) (d : Dur) : (s.emit l d).div = s.div := rfl
@[simp] theorem State.emit_cfgValid (s : State) (l : Level) (d : Dur) : (s.emit l d).cfgValid = s.cfgValid := rfl
@[simp] theorem State.emit_bufBase (s : State) (l : Level) (d : Dur) : (s.emit l d).bufBase = s.bufBase := rfl
@[simp] theorem State.emit_bufLen (s : State) (l : Level) (d : Dur) : (s.emit l d).bufLen = s.bufLen := rfl
@[simp] theorem State.emit_lock (s : State) (l : Level) (d : Dur) : (s.emit l d).lock = s.lock := rfl
@[simp] theorem State.emit_ctl (s : State) (l : Level) (d : Dur) : (s.emit l d).ctl = s.ctl := rfl
@[simp] theorem State.emit_faulted (s : State) (l : Level) (d : Dur) : (s.emit l d).faulted = s.faulted := rfl
@[simp] theorem State.emit_faultCode (s : State) (l : Level) (d : Dur) : (s.emit l d).faultCode = s.faultCode := rfl
@[simp] theorem State.emit_faultInfo (s : State) (l : Level) (d : Dur) : (s.emit l d).faultInfo = s.faultInfo := rfl
@[simp] theorem State.emit_refused (s : State) (l : Level) (d : Dur) : (s.emit l d).refused = s.refused := rfl
@[simp] theorem State.emit_pmem (s : State) (l : Level) (d : Dur) : (s.emit l d).pmem = s.pmem := rfl
@[simp] theorem State.emit_trace (s : State) (l : Level) (d : Dur) : (s.emit l d).trace = s.trace ++ [⟨l, d.toNat⟩] := rfl
@[simp] theorem State.emit_hstate (s : State) (l : Level) (d : Dur) : (s.emit l d).hstate = s.hstate := rfl
@[simp] theorem State.emit_sys (s : State) (l : Level) (d : Dur) : (s.emit l d).sys = s.sys := rfl
@[simp] theorem State.emit_agenda (s : State) (l : Level) (d : Dur) : (s.emit l d).agenda = s.agenda := rfl
@[simp] theorem State.emit_draws (s : State) (l : Level) (d : Dur) : (s.emit l d).draws = s.draws := rfl
@[simp] theorem State.emit_issuer (s : State) (l : Level) (d : Dur) : (s.emit l d).issuer = s.issuer := rfl
@[simp] theorem State.emit_installOk (s : State) (l : Level) (d : Dur) : (s.emit l d).installOk = s.installOk := rfl
@[simp] theorem State.emit_reply (s : State) (l : Level) (d : Dur) : (s.emit l d).reply = s.reply := rfl

/-! ## `State.endPlayback` -/

@[simp] theorem State.endPlayback_par (s : State) : (s.endPlayback).par = s.par := rfl
@[simp] theorem State.endPlayback_pos (s : State) : (s.endPlayback).pos = s.pos := rfl
@[simp] theorem State.endPlayback_len (s : State) : (s.endPlayback).len = s.len := rfl
@[simp] theorem State.endPlayback_txoff (s : State) : (s.endPlayback).txoff = s.txoff := rfl
@[simp] theorem State.endPlayback_rp (s : State) : (s.endPlayback).rp = s.rp := rfl
@[simp] theorem State.endPlayback_cur (s : State) : (s.endPlayback).cur = s.cur := rfl
@[simp] theorem State.endPlayback_pbRun (s : State) : (s.endPlayback).pbRun = false := rfl
@[simp] theorem State.endPlayback_elapsed (s : State) : (s.endPlayback).elapsed = s.elapsed := rfl
@[simp] theorem State.endPlayback_dout (s : State) : (s.endPlayback).dout = s.par.idleLevel := rfl
@[simp] theorem State.endPlayback_thrPending (s : State) : (s.endPlayback).thrPending = false := rfl
@[simp] theorem State.endPlayback_done (s : State) : (s.endPlayback).done = true := rfl
@[simp] theorem State.endPlayback_rflEn (s : State) : (s.endPlayback).rflEn = s.rflEn := rfl
@[simp] theorem State.endPlayback_div (s : State) : (s.endPlayback).div = s.div := rfl
@[simp] theorem State.endPlayback_cfgValid (s : State) : (s.endPlayback).cfgValid = s.cfgValid := rfl
@[simp] theorem State.endPlayback_bufBase (s : State) : (s.endPlayback).bufBase = s.bufBase := rfl
@[simp] theorem State.endPlayback_bufLen (s : State) : (s.endPlayback).bufLen = s.bufLen := rfl
@[simp] theorem State.endPlayback_lock (s : State) : (s.endPlayback).lock = s.lock := rfl
@[simp] theorem State.endPlayback_ctl (s : State) : (s.endPlayback).ctl = s.ctl := rfl
@[simp] theorem State.endPlayback_faulted (s : State) : (s.endPlayback).faulted = s.faulted := rfl
@[simp] theorem State.endPlayback_faultCode (s : State) : (s.endPlayback).faultCode = s.faultCode := rfl
@[simp] theorem State.endPlayback_faultInfo (s : State) : (s.endPlayback).faultInfo = s.faultInfo := rfl
@[simp] theorem State.endPlayback_refused (s : State) : (s.endPlayback).refused = s.refused := rfl
@[simp] theorem State.endPlayback_pmem (s : State) : (s.endPlayback).pmem = s.pmem := rfl
@[simp] theorem State.endPlayback_trace (s : State) : (s.endPlayback).trace = s.trace := rfl
@[simp] theorem State.endPlayback_hstate (s : State) : (s.endPlayback).hstate = s.hstate := rfl
@[simp] theorem State.endPlayback_sys (s : State) : (s.endPlayback).sys = s.sys := rfl
@[simp] theorem State.endPlayback_agenda (s : State) : (s.endPlayback).agenda = s.agenda := rfl
@[simp] theorem State.endPlayback_draws (s : State) : (s.endPlayback).draws = s.draws := rfl
@[simp] theorem State.endPlayback_issuer (s : State) : (s.endPlayback).issuer = s.issuer := rfl
@[simp] theorem State.endPlayback_installOk (s : State) : (s.endPlayback).installOk = s.installOk := rfl
@[simp] theorem State.endPlayback_reply (s : State) : (s.endPlayback).reply = s.reply := rfl

/-! ## `State.raiseFault` -/

@[simp] theorem State.raiseFault_par (s : State) (k : FaultKind) (info : Word) : (s.raiseFault k info).par = s.par := rfl
@[simp] theorem State.raiseFault_pos (s : State) (k : FaultKind) (info : Word) : (s.raiseFault k info).pos = s.pos := rfl
@[simp] theorem State.raiseFault_len (s : State) (k : FaultKind) (info : Word) : (s.raiseFault k info).len = s.len := rfl
@[simp] theorem State.raiseFault_txoff (s : State) (k : FaultKind) (info : Word) : (s.raiseFault k info).txoff = s.txoff := rfl
@[simp] theorem State.raiseFault_rp (s : State) (k : FaultKind) (info : Word) : (s.raiseFault k info).rp = s.rp := rfl
@[simp] theorem State.raiseFault_cur (s : State) (k : FaultKind) (info : Word) : (s.raiseFault k info).cur = s.cur := rfl
@[simp] theorem State.raiseFault_pbRun (s : State) (k : FaultKind) (info : Word) : (s.raiseFault k info).pbRun = false := rfl
@[simp] theorem State.raiseFault_elapsed (s : State) (k : FaultKind) (info : Word) : (s.raiseFault k info).elapsed = s.elapsed := rfl
@[simp] theorem State.raiseFault_dout (s : State) (k : FaultKind) (info : Word) : (s.raiseFault k info).dout = s.par.idleLevel := rfl
@[simp] theorem State.raiseFault_thrPending (s : State) (k : FaultKind) (info : Word) : (s.raiseFault k info).thrPending = false := rfl
@[simp] theorem State.raiseFault_done (s : State) (k : FaultKind) (info : Word) : (s.raiseFault k info).done = s.done := rfl
@[simp] theorem State.raiseFault_rflEn (s : State) (k : FaultKind) (info : Word) : (s.raiseFault k info).rflEn = false := rfl
@[simp] theorem State.raiseFault_div (s : State) (k : FaultKind) (info : Word) : (s.raiseFault k info).div = s.div := rfl
@[simp] theorem State.raiseFault_cfgValid (s : State) (k : FaultKind) (info : Word) : (s.raiseFault k info).cfgValid = s.cfgValid := rfl
@[simp] theorem State.raiseFault_bufBase (s : State) (k : FaultKind) (info : Word) : (s.raiseFault k info).bufBase = s.bufBase := rfl
@[simp] theorem State.raiseFault_bufLen (s : State) (k : FaultKind) (info : Word) : (s.raiseFault k info).bufLen = s.bufLen := rfl
@[simp] theorem State.raiseFault_lock (s : State) (k : FaultKind) (info : Word) : (s.raiseFault k info).lock = s.lock := rfl
@[simp] theorem State.raiseFault_ctl (s : State) (k : FaultKind) (info : Word) : (s.raiseFault k info).ctl = s.ctl := rfl
@[simp] theorem State.raiseFault_faulted (s : State) (k : FaultKind) (info : Word) : (s.raiseFault k info).faulted = true := rfl
@[simp] theorem State.raiseFault_faultCode (s : State) (k : FaultKind) (info : Word) : (s.raiseFault k info).faultCode = faultCodeOf k := rfl
@[simp] theorem State.raiseFault_faultInfo (s : State) (k : FaultKind) (info : Word) : (s.raiseFault k info).faultInfo = info := rfl
@[simp] theorem State.raiseFault_refused (s : State) (k : FaultKind) (info : Word) : (s.raiseFault k info).refused = s.refused := rfl
@[simp] theorem State.raiseFault_pmem (s : State) (k : FaultKind) (info : Word) : (s.raiseFault k info).pmem = s.pmem := rfl
@[simp] theorem State.raiseFault_trace (s : State) (k : FaultKind) (info : Word) : (s.raiseFault k info).trace = s.trace := rfl
@[simp] theorem State.raiseFault_hstate (s : State) (k : FaultKind) (info : Word) : (s.raiseFault k info).hstate = s.hstate := rfl
@[simp] theorem State.raiseFault_sys (s : State) (k : FaultKind) (info : Word) : (s.raiseFault k info).sys = s.sys := rfl
@[simp] theorem State.raiseFault_agenda (s : State) (k : FaultKind) (info : Word) : (s.raiseFault k info).agenda = s.agenda := rfl
@[simp] theorem State.raiseFault_draws (s : State) (k : FaultKind) (info : Word) : (s.raiseFault k info).draws = s.draws := rfl
@[simp] theorem State.raiseFault_issuer (s : State) (k : FaultKind) (info : Word) : (s.raiseFault k info).issuer = s.issuer := rfl
@[simp] theorem State.raiseFault_installOk (s : State) (k : FaultKind) (info : Word) : (s.raiseFault k info).installOk = s.installOk := rfl
@[simp] theorem State.raiseFault_reply (s : State) (k : FaultKind) (info : Word) : (s.raiseFault k info).reply = s.reply := rfl

/-! ## `State.refuse` -/

@[simp] theorem State.refuse_par (s : State) : (s.refuse).par = s.par := rfl
@[simp] theorem State.refuse_pos (s : State) : (s.refuse).pos = s.pos := rfl
@[simp] theorem State.refuse_len (s : State) : (s.refuse).len = s.len := rfl
@[simp] theorem State.refuse_txoff (s : State) : (s.refuse).txoff = s.txoff := rfl
@[simp] theorem State.refuse_rp (s : State) : (s.refuse).rp = s.rp := rfl
@[simp] theorem State.refuse_cur (s : State) : (s.refuse).cur = s.cur := rfl
@[simp] theorem State.refuse_pbRun (s : State) : (s.refuse).pbRun = s.pbRun := rfl
@[simp] theorem State.refuse_elapsed (s : State) : (s.refuse).elapsed = s.elapsed := rfl
@[simp] theorem State.refuse_dout (s : State) : (s.refuse).dout = s.dout := rfl
@[simp] theorem State.refuse_thrPending (s : State) : (s.refuse).thrPending = s.thrPending := rfl
@[simp] theorem State.refuse_done (s : State) : (s.refuse).done = s.done := rfl
@[simp] theorem State.refuse_rflEn (s : State) : (s.refuse).rflEn = s.rflEn := rfl
@[simp] theorem State.refuse_div (s : State) : (s.refuse).div = s.div := rfl
@[simp] theorem State.refuse_cfgValid (s : State) : (s.refuse).cfgValid = s.cfgValid := rfl
@[simp] theorem State.refuse_bufBase (s : State) : (s.refuse).bufBase = s.bufBase := rfl
@[simp] theorem State.refuse_bufLen (s : State) : (s.refuse).bufLen = s.bufLen := rfl
@[simp] theorem State.refuse_lock (s : State) : (s.refuse).lock = s.lock := rfl
@[simp] theorem State.refuse_ctl (s : State) : (s.refuse).ctl = s.ctl := rfl
@[simp] theorem State.refuse_faulted (s : State) : (s.refuse).faulted = s.faulted := rfl
@[simp] theorem State.refuse_faultCode (s : State) : (s.refuse).faultCode = s.faultCode := rfl
@[simp] theorem State.refuse_faultInfo (s : State) : (s.refuse).faultInfo = s.faultInfo := rfl
@[simp] theorem State.refuse_refused (s : State) : (s.refuse).refused = true := rfl
@[simp] theorem State.refuse_pmem (s : State) : (s.refuse).pmem = s.pmem := rfl
@[simp] theorem State.refuse_trace (s : State) : (s.refuse).trace = s.trace := rfl
@[simp] theorem State.refuse_hstate (s : State) : (s.refuse).hstate = s.hstate := rfl
@[simp] theorem State.refuse_sys (s : State) : (s.refuse).sys = s.sys := rfl
@[simp] theorem State.refuse_agenda (s : State) : (s.refuse).agenda = s.agenda := rfl
@[simp] theorem State.refuse_draws (s : State) : (s.refuse).draws = s.draws := rfl
@[simp] theorem State.refuse_issuer (s : State) : (s.refuse).issuer = s.issuer := rfl
@[simp] theorem State.refuse_installOk (s : State) : (s.refuse).installOk = s.installOk := rfl
@[simp] theorem State.refuse_reply (s : State) : (s.refuse).reply = s.reply := rfl

/-! ## `State.hook` -/

@[simp] theorem State.hook_par (s : State) : (s.hook).par = s.par := rfl
@[simp] theorem State.hook_pos (s : State) : (s.hook).pos = s.pos := rfl
@[simp] theorem State.hook_len (s : State) : (s.hook).len = s.len := rfl
@[simp] theorem State.hook_txoff (s : State) : (s.hook).txoff = s.txoff := rfl
@[simp] theorem State.hook_rp (s : State) : (s.hook).rp = s.rp := rfl
@[simp] theorem State.hook_cur (s : State) : (s.hook).cur = s.cur := rfl
@[simp] theorem State.hook_pbRun (s : State) : (s.hook).pbRun = s.pbRun := rfl
@[simp] theorem State.hook_elapsed (s : State) : (s.hook).elapsed = s.elapsed := rfl
@[simp] theorem State.hook_dout (s : State) : (s.hook).dout = s.dout := rfl
@[simp] theorem State.hook_thrPending (s : State) : (s.hook).thrPending = s.thrPending := rfl
@[simp] theorem State.hook_done (s : State) : (s.hook).done = s.done := rfl
@[simp] theorem State.hook_rflEn (s : State) : (s.hook).rflEn = true := rfl
@[simp] theorem State.hook_div (s : State) : (s.hook).div = s.div := rfl
@[simp] theorem State.hook_cfgValid (s : State) : (s.hook).cfgValid = s.cfgValid := rfl
@[simp] theorem State.hook_bufBase (s : State) : (s.hook).bufBase = s.bufBase := rfl
@[simp] theorem State.hook_bufLen (s : State) : (s.hook).bufLen = s.bufLen := rfl
@[simp] theorem State.hook_lock (s : State) : (s.hook).lock = s.lock := rfl
@[simp] theorem State.hook_ctl (s : State) : (s.hook).ctl = s.ctl := rfl
@[simp] theorem State.hook_faulted (s : State) : (s.hook).faulted = s.faulted := rfl
@[simp] theorem State.hook_faultCode (s : State) : (s.hook).faultCode = s.faultCode := rfl
@[simp] theorem State.hook_faultInfo (s : State) : (s.hook).faultInfo = s.faultInfo := rfl
@[simp] theorem State.hook_refused (s : State) : (s.hook).refused = s.refused := rfl
@[simp] theorem State.hook_pmem (s : State) : (s.hook).pmem = s.pmem := rfl
@[simp] theorem State.hook_trace (s : State) : (s.hook).trace = s.trace := rfl
@[simp] theorem State.hook_hstate (s : State) : (s.hook).hstate = s.hstate := rfl
@[simp] theorem State.hook_sys (s : State) : (s.hook).sys = s.sys := rfl
@[simp] theorem State.hook_agenda (s : State) : (s.hook).agenda = s.agenda := rfl
@[simp] theorem State.hook_draws (s : State) : (s.hook).draws = s.draws := rfl
@[simp] theorem State.hook_issuer (s : State) : (s.hook).issuer = s.issuer := rfl
@[simp] theorem State.hook_installOk (s : State) : (s.hook).installOk = s.installOk := rfl
@[simp] theorem State.hook_reply (s : State) : (s.hook).reply = s.reply := rfl

/-! ## `State.unhook` -/

@[simp] theorem State.unhook_par (s : State) : (s.unhook).par = s.par := rfl
@[simp] theorem State.unhook_pos (s : State) : (s.unhook).pos = s.pos := rfl
@[simp] theorem State.unhook_len (s : State) : (s.unhook).len = s.len := rfl
@[simp] theorem State.unhook_txoff (s : State) : (s.unhook).txoff = s.txoff := rfl
@[simp] theorem State.unhook_rp (s : State) : (s.unhook).rp = s.rp := rfl
@[simp] theorem State.unhook_cur (s : State) : (s.unhook).cur = s.cur := rfl
@[simp] theorem State.unhook_pbRun (s : State) : (s.unhook).pbRun = s.pbRun := rfl
@[simp] theorem State.unhook_elapsed (s : State) : (s.unhook).elapsed = s.elapsed := rfl
@[simp] theorem State.unhook_dout (s : State) : (s.unhook).dout = s.dout := rfl
@[simp] theorem State.unhook_thrPending (s : State) : (s.unhook).thrPending = false := rfl
@[simp] theorem State.unhook_done (s : State) : (s.unhook).done = s.done := rfl
@[simp] theorem State.unhook_rflEn (s : State) : (s.unhook).rflEn = false := rfl
@[simp] theorem State.unhook_div (s : State) : (s.unhook).div = s.div := rfl
@[simp] theorem State.unhook_cfgValid (s : State) : (s.unhook).cfgValid = s.cfgValid := rfl
@[simp] theorem State.unhook_bufBase (s : State) : (s.unhook).bufBase = s.bufBase := rfl
@[simp] theorem State.unhook_bufLen (s : State) : (s.unhook).bufLen = s.bufLen := rfl
@[simp] theorem State.unhook_lock (s : State) : (s.unhook).lock = s.lock := rfl
@[simp] theorem State.unhook_ctl (s : State) : (s.unhook).ctl = s.ctl := rfl
@[simp] theorem State.unhook_faulted (s : State) : (s.unhook).faulted = s.faulted := rfl
@[simp] theorem State.unhook_faultCode (s : State) : (s.unhook).faultCode = s.faultCode := rfl
@[simp] theorem State.unhook_faultInfo (s : State) : (s.unhook).faultInfo = s.faultInfo := rfl
@[simp] theorem State.unhook_refused (s : State) : (s.unhook).refused = s.refused := rfl
@[simp] theorem State.unhook_pmem (s : State) : (s.unhook).pmem = s.pmem := rfl
@[simp] theorem State.unhook_trace (s : State) : (s.unhook).trace = s.trace := rfl
@[simp] theorem State.unhook_hstate (s : State) : (s.unhook).hstate = s.hstate := rfl
@[simp] theorem State.unhook_sys (s : State) : (s.unhook).sys = s.sys := rfl
@[simp] theorem State.unhook_agenda (s : State) : (s.unhook).agenda = s.agenda := rfl
@[simp] theorem State.unhook_draws (s : State) : (s.unhook).draws = s.draws := rfl
@[simp] theorem State.unhook_issuer (s : State) : (s.unhook).issuer = s.issuer := rfl
@[simp] theorem State.unhook_installOk (s : State) : (s.unhook).installOk = s.installOk := rfl
@[simp] theorem State.unhook_reply (s : State) : (s.unhook).reply = s.reply := rfl

/-! ## `State.startWait` -/

@[simp] theorem State.startWait_par (s : State) : (s.startWait).par = s.par := rfl
@[simp] theorem State.startWait_pos (s : State) : (s.startWait).pos = s.pos := rfl
@[simp] theorem State.startWait_len (s : State) : (s.startWait).len = s.len := rfl
@[simp] theorem State.startWait_txoff (s : State) : (s.startWait).txoff = s.txoff := rfl
@[simp] theorem State.startWait_rp (s : State) : (s.startWait).rp = s.rp := rfl
@[simp] theorem State.startWait_cur (s : State) : (s.startWait).cur = s.cur := rfl
@[simp] theorem State.startWait_pbRun (s : State) : (s.startWait).pbRun = s.pbRun := rfl
@[simp] theorem State.startWait_elapsed (s : State) : (s.startWait).elapsed = s.elapsed := rfl
@[simp] theorem State.startWait_dout (s : State) : (s.startWait).dout = s.dout := rfl
@[simp] theorem State.startWait_thrPending (s : State) : (s.startWait).thrPending = s.thrPending := rfl
@[simp] theorem State.startWait_done (s : State) : (s.startWait).done = s.done := rfl
@[simp] theorem State.startWait_rflEn (s : State) : (s.startWait).rflEn = s.rflEn := rfl
@[simp] theorem State.startWait_div (s : State) : (s.startWait).div = s.div := rfl
@[simp] theorem State.startWait_cfgValid (s : State) : (s.startWait).cfgValid = s.cfgValid := rfl
@[simp] theorem State.startWait_bufBase (s : State) : (s.startWait).bufBase = s.bufBase := rfl
@[simp] theorem State.startWait_bufLen (s : State) : (s.startWait).bufLen = s.bufLen := rfl
@[simp] theorem State.startWait_lock (s : State) : (s.startWait).lock = s.lock := rfl
@[simp] theorem State.startWait_ctl (s : State) : (s.startWait).ctl = .waiting := rfl
@[simp] theorem State.startWait_faulted (s : State) : (s.startWait).faulted = s.faulted := rfl
@[simp] theorem State.startWait_faultCode (s : State) : (s.startWait).faultCode = s.faultCode := rfl
@[simp] theorem State.startWait_faultInfo (s : State) : (s.startWait).faultInfo = s.faultInfo := rfl
@[simp] theorem State.startWait_refused (s : State) : (s.startWait).refused = s.refused := rfl
@[simp] theorem State.startWait_pmem (s : State) : (s.startWait).pmem = s.pmem := rfl
@[simp] theorem State.startWait_trace (s : State) : (s.startWait).trace = s.trace := rfl
@[simp] theorem State.startWait_hstate (s : State) : (s.startWait).hstate = s.hstate := rfl
@[simp] theorem State.startWait_sys (s : State) : (s.startWait).sys = s.sys := rfl
@[simp] theorem State.startWait_agenda (s : State) : (s.startWait).agenda = s.agenda := rfl
@[simp] theorem State.startWait_draws (s : State) : (s.startWait).draws = s.draws := rfl
@[simp] theorem State.startWait_issuer (s : State) : (s.startWait).issuer = s.issuer := rfl
@[simp] theorem State.startWait_installOk (s : State) : (s.startWait).installOk = s.installOk := rfl
@[simp] theorem State.startWait_reply (s : State) : (s.startWait).reply = s.reply := rfl

/-! ## `State.setHstate` -/

@[simp] theorem State.setHstate_par (s : State) (h : Nat) (x : HostState) : (s.setHstate h x).par = s.par := rfl
@[simp] theorem State.setHstate_pos (s : State) (h : Nat) (x : HostState) : (s.setHstate h x).pos = s.pos := rfl
@[simp] theorem State.setHstate_len (s : State) (h : Nat) (x : HostState) : (s.setHstate h x).len = s.len := rfl
@[simp] theorem State.setHstate_txoff (s : State) (h : Nat) (x : HostState) : (s.setHstate h x).txoff = s.txoff := rfl
@[simp] theorem State.setHstate_rp (s : State) (h : Nat) (x : HostState) : (s.setHstate h x).rp = s.rp := rfl
@[simp] theorem State.setHstate_cur (s : State) (h : Nat) (x : HostState) : (s.setHstate h x).cur = s.cur := rfl
@[simp] theorem State.setHstate_pbRun (s : State) (h : Nat) (x : HostState) : (s.setHstate h x).pbRun = s.pbRun := rfl
@[simp] theorem State.setHstate_elapsed (s : State) (h : Nat) (x : HostState) : (s.setHstate h x).elapsed = s.elapsed := rfl
@[simp] theorem State.setHstate_dout (s : State) (h : Nat) (x : HostState) : (s.setHstate h x).dout = s.dout := rfl
@[simp] theorem State.setHstate_thrPending (s : State) (h : Nat) (x : HostState) : (s.setHstate h x).thrPending = s.thrPending := rfl
@[simp] theorem State.setHstate_done (s : State) (h : Nat) (x : HostState) : (s.setHstate h x).done = s.done := rfl
@[simp] theorem State.setHstate_rflEn (s : State) (h : Nat) (x : HostState) : (s.setHstate h x).rflEn = s.rflEn := rfl
@[simp] theorem State.setHstate_div (s : State) (h : Nat) (x : HostState) : (s.setHstate h x).div = s.div := rfl
@[simp] theorem State.setHstate_cfgValid (s : State) (h : Nat) (x : HostState) : (s.setHstate h x).cfgValid = s.cfgValid := rfl
@[simp] theorem State.setHstate_bufBase (s : State) (h : Nat) (x : HostState) : (s.setHstate h x).bufBase = s.bufBase := rfl
@[simp] theorem State.setHstate_bufLen (s : State) (h : Nat) (x : HostState) : (s.setHstate h x).bufLen = s.bufLen := rfl
@[simp] theorem State.setHstate_lock (s : State) (h : Nat) (x : HostState) : (s.setHstate h x).lock = s.lock := rfl
@[simp] theorem State.setHstate_ctl (s : State) (h : Nat) (x : HostState) : (s.setHstate h x).ctl = s.ctl := rfl
@[simp] theorem State.setHstate_faulted (s : State) (h : Nat) (x : HostState) : (s.setHstate h x).faulted = s.faulted := rfl
@[simp] theorem State.setHstate_faultCode (s : State) (h : Nat) (x : HostState) : (s.setHstate h x).faultCode = s.faultCode := rfl
@[simp] theorem State.setHstate_faultInfo (s : State) (h : Nat) (x : HostState) : (s.setHstate h x).faultInfo = s.faultInfo := rfl
@[simp] theorem State.setHstate_refused (s : State) (h : Nat) (x : HostState) : (s.setHstate h x).refused = s.refused := rfl
@[simp] theorem State.setHstate_pmem (s : State) (h : Nat) (x : HostState) : (s.setHstate h x).pmem = s.pmem := rfl
@[simp] theorem State.setHstate_trace (s : State) (h : Nat) (x : HostState) : (s.setHstate h x).trace = s.trace := rfl
@[simp] theorem State.setHstate_hstate (s : State) (h : Nat) (x : HostState) : (s.setHstate h x).hstate = s.hstate.set h x := rfl
@[simp] theorem State.setHstate_sys (s : State) (h : Nat) (x : HostState) : (s.setHstate h x).sys = s.sys := rfl
@[simp] theorem State.setHstate_agenda (s : State) (h : Nat) (x : HostState) : (s.setHstate h x).agenda = s.agenda := rfl
@[simp] theorem State.setHstate_draws (s : State) (h : Nat) (x : HostState) : (s.setHstate h x).draws = s.draws := rfl
@[simp] theorem State.setHstate_issuer (s : State) (h : Nat) (x : HostState) : (s.setHstate h x).issuer = s.issuer := rfl
@[simp] theorem State.setHstate_installOk (s : State) (h : Nat) (x : HostState) : (s.setHstate h x).installOk = s.installOk := rfl
@[simp] theorem State.setHstate_reply (s : State) (h : Nat) (x : HostState) : (s.setHstate h x).reply = s.reply := rfl

/-! ## `State.latchNext` -/

@[simp] theorem State.latchNext_par (s : State) : (s.latchNext).par = s.par := rfl
@[simp] theorem State.latchNext_pos (s : State) : (s.latchNext).pos = s.pos := rfl
@[simp] theorem State.latchNext_len (s : State) : (s.latchNext).len = s.len := rfl
@[simp] theorem State.latchNext_txoff (s : State) : (s.latchNext).txoff = s.txoff := rfl
@[simp] theorem State.latchNext_rp (s : State) : (s.latchNext).rp = (s.rp + 1) % s.par.nMem := rfl
@[simp] theorem State.latchNext_cur (s : State) : (s.latchNext).cur = s.pmem.read ((s.rp + 1) % s.par.nMem) := rfl
@[simp] theorem State.latchNext_pbRun (s : State) : (s.latchNext).pbRun = s.pbRun := rfl
@[simp] theorem State.latchNext_elapsed (s : State) : (s.latchNext).elapsed = s.elapsed := rfl
@[simp] theorem State.latchNext_dout (s : State) : (s.latchNext).dout = s.dout := rfl
@[simp] theorem State.latchNext_thrPending (s : State) : (s.latchNext).thrPending = s.thrPending := rfl
@[simp] theorem State.latchNext_done (s : State) : (s.latchNext).done = s.done := rfl
@[simp] theorem State.latchNext_rflEn (s : State) : (s.latchNext).rflEn = s.rflEn := rfl
@[simp] theorem State.latchNext_div (s : State) : (s.latchNext).div = s.div := rfl
@[simp] theorem State.latchNext_cfgValid (s : State) : (s.latchNext).cfgValid = s.cfgValid := rfl
@[simp] theorem State.latchNext_bufBase (s : State) : (s.latchNext).bufBase = s.bufBase := rfl
@[simp] theorem State.latchNext_bufLen (s : State) : (s.latchNext).bufLen = s.bufLen := rfl
@[simp] theorem State.latchNext_lock (s : State) : (s.latchNext).lock = s.lock := rfl
@[simp] theorem State.latchNext_ctl (s : State) : (s.latchNext).ctl = s.ctl := rfl
@[simp] theorem State.latchNext_faulted (s : State) : (s.latchNext).faulted = s.faulted := rfl
@[simp] theorem State.latchNext_faultCode (s : State) : (s.latchNext).faultCode = s.faultCode := rfl
@[simp] theorem State.latchNext_faultInfo (s : State) : (s.latchNext).faultInfo = s.faultInfo := rfl
@[simp] theorem State.latchNext_refused (s : State) : (s.latchNext).refused = s.refused := rfl
@[simp] theorem State.latchNext_pmem (s : State) : (s.latchNext).pmem = s.pmem := rfl
@[simp] theorem State.latchNext_trace (s : State) : (s.latchNext).trace = s.trace := rfl
@[simp] theorem State.latchNext_hstate (s : State) : (s.latchNext).hstate = s.hstate := rfl
@[simp] theorem State.latchNext_sys (s : State) : (s.latchNext).sys = s.sys := rfl
@[simp] theorem State.latchNext_agenda (s : State) : (s.latchNext).agenda = s.agenda := rfl
@[simp] theorem State.latchNext_draws (s : State) : (s.latchNext).draws = s.draws := rfl
@[simp] theorem State.latchNext_issuer (s : State) : (s.latchNext).issuer = s.issuer := rfl
@[simp] theorem State.latchNext_installOk (s : State) : (s.latchNext).installOk = s.installOk := rfl
@[simp] theorem State.latchNext_reply (s : State) : (s.latchNext).reply = s.reply := rfl

end Sys2Proof.Machine
end

