-- ==== Sys2Proof/Laws/Ops.lean ====
section
/-! SUPPORT. Once for each shared operation, everything it can do; and for each choice of the environment, every state its
step can answer. -/

namespace Sys2Proof.Machine

/-! ## The gate of transactions -/

theorem State.live_iff (s : State) : s.live = true ↔ s.faulted = false ∧ s.refused = false := by
  simp [State.live]

/-- A transaction holds, is refused, or has its effect. -/
theorem State.transact_cases (s : State) (legal : Bool) (act : State → State) :
    (s.canIssue = false ∧ s.transact legal act = s) ∨
    (s.canIssue = true ∧ legal = false ∧ s.transact legal act = s.refuse) ∨
    (s.canIssue = true ∧ legal = true ∧ s.transact legal act = act s) := by
  unfold State.transact
  cases s.canIssue <;> cases legal <;> simp

@[simp] theorem State.transact_hold {s : State} (h : s.canIssue = false) (legal : Bool) (act : State → State) :
    s.transact legal act = s := by
  simp [State.transact, h]

@[simp] theorem State.transact_legal {s : State} (h : s.canIssue = true) (act : State → State) :
    s.transact true act = act s := by
  simp [State.transact, h]

@[simp] theorem State.transact_illegal {s : State} (h : s.canIssue = true) (act : State → State) :
    s.transact false act = s.refuse := by
  simp [State.transact, h]

/-- Words that are no transaction are held or refused. -/
theorem State.rejectWords_cases (s : State) : s.rejectWords = s ∨ s.rejectWords = s.refuse := by
  unfold State.rejectWords State.transact
  cases s.canIssue <;> simp

/-! ## Events -/

/-- RAISE_THR discards, faults or sets the pending bit (R166). -/
theorem State.raiseThr_cases (s : State) :
    (s.rflEn = false ∧ s.raiseThr = s) ∨
    (s.rflEn = true ∧ s.thrPending = true ∧ s.raiseThr = s.raiseFault .underrun (BitVec.ofNat 32 s.rp)) ∨
    (s.rflEn = true ∧ s.thrPending = false ∧ s.raiseThr = { s with thrPending := true }) := by
  unfold State.raiseThr
  cases s.rflEn <;> cases s.thrPending <;> simp

/-- TIMEOUT_CHECK does nothing or faults (R111). -/
theorem State.timeoutCheck_cases (s : State) :
    ((s.ctl ≠ .waiting ∨ s.done = true ∨ s.elapsed ≤ s.par.waitTimeout) ∧ s.timeoutCheck = s) ∨
    (s.ctl = .waiting ∧ s.done = false ∧ s.par.waitTimeout < s.elapsed ∧
      s.timeoutCheck = s.raiseFault .waitTimeout (BitVec.ofNat 32 s.elapsed)) := by
  by_cases h : s.ctl = .waiting ∧ s.done = false ∧ s.par.waitTimeout < s.elapsed
  · exact .inr ⟨h.1, h.2.1, h.2.2, by simp [State.timeoutCheck, h]⟩
  · refine .inl ⟨?_, by rw [State.timeoutCheck, if_neg h]⟩
    by_cases h1 : s.ctl = .waiting
    · cases h2 : s.done
      · exact .inr (.inr (by simp only [h1, h2, true_and, not_lt] at h; exact h))
      · exact .inr (.inl rfl)
    · exact .inl h1

/-- START_PLAYBACK runs on an entry that is no END0 (R160). -/
theorem State.startPlayback_run {s : State} (h : entryDur0 (s.pmem.read 0) ≠ 0#15) :
    s.startPlayback =
      { s with
        rp := 0, cur := s.pmem.read 0, elapsed := 0, done := false, thrPending := false, pbRun := true } := by
  simp [State.startPlayback, h]

/-! ## Playback -/

/-- Playing a latched word depends on its fields only: named words are played as the entries they name (R82, R94). -/
theorem exec_decodeEntry (w : Word) (s : State) :
    exec (decodeEntry w) s =
      .next (if entryDur0 w = 0#15 then s.playEnd0
        else if entryDur1 w = 0#15 then s.playEnd1 (entryLvl0 w) (entryDur0 w)
        else s.playPair (entryLvl0 w) (entryDur0 w) (entryLvl1 w) (entryDur1 w)) := by
  unfold decodeEntry
  by_cases h1 : w = wordTerm
  · subst h1; simp [exec, execTerm, wordTerm_fields]
  by_cases h2 : w = wordBit0
  · subst h2; simp only [if_neg h1, if_true, exec, execBit0]
    simp [wordBit0_fields]
  by_cases h3 : w = wordBit1
  · subst h3; simp only [if_neg h1, if_neg h2, if_true, exec, execBit1]
    simp [wordBit1_fields]
  by_cases h4 : w = wordLatch
  · subst h4; simp only [if_neg h1, if_neg h2, if_neg h3, if_true, exec, execLatch]
    simp [wordLatch_fields]
  simp only [if_neg h1, if_neg h2, if_neg h3, if_neg h4]
  split
  · rfl
  · split <;> rfl

/-- What the play choice can do: hold, or play the latched entry by its class (R162 to R164). -/
theorem State.take_play_cases (s : State) :
    (s.canPlay = false ∧ s.take .play = .next s) ∨
    (s.canPlay = true ∧ entryDur0 s.cur = 0#15 ∧ s.take .play = .next s.endPlayback) ∨
    (s.canPlay = true ∧ entryDur0 s.cur ≠ 0#15 ∧ entryDur1 s.cur = 0#15 ∧
      s.take .play = .next (s.emit (entryLvl0 s.cur) (entryDur0 s.cur)).endPlayback) ∨
    (s.canPlay = true ∧ entryDur0 s.cur ≠ 0#15 ∧ entryDur1 s.cur ≠ 0#15 ∧
      s.take .play =
        .next ((s.emit (entryLvl0 s.cur) (entryDur0 s.cur)).emit (entryLvl1 s.cur)
          (entryDur1 s.cur)).latchNext.afterLatch) := by
  have h : s.take .play = exec (decodeEntry s.cur) s := rfl
  rw [h, exec_decodeEntry]
  by_cases h0 : entryDur0 s.cur = 0#15
  · cases hp : s.canPlay <;> simp [h0, hp, State.playEnd0]
  · by_cases h1 : entryDur1 s.cur = 0#15
    · cases hp : s.canPlay <;> simp [h0, h1, hp, State.playEnd1]
    · cases hp : s.canPlay <;> simp [h0, h1, hp, State.playPair]

/-! ## The other choices -/

/-- What a host's transaction can do: hold, be refused, configure, request a frame, read the status. -/
theorem State.take_issue_host_cases {s t : State} {h : Nat} {words : List Word} {ok : Bool}
    (hs : s.take (.issue (.host h) words ok) = .next t) :
    let p : State := { s with issuer := .host h, installOk := ok }
    t = p ∨ t = p.refuse ∨
    (p.canIssue = true ∧ s.cfgValid = false ∧ ∃ div, t = p.doConfigure div) ∨
    (p.canIssue = true ∧ ∃ base len, base.toNat < 2 ^ s.par.addrW ∧ t = p.setHstate h (.showReq base len)) ∨
    (p.canIssue = true ∧ t = { p with reply := some (h, p.statusWord) }) := by
  intro p
  have key : ∀ (legal : Bool) (act : State → State) (u : State), Host.Outcome.next (φ := Fault) (ρ := Refusal)
      (p.transact legal act) = .next u →
      u = p ∨ u = p.refuse ∨ (p.canIssue = true ∧ legal = true ∧ u = act p) := by
    intro legal act u hu
    injection hu with hu
    rcases State.transact_cases p legal act with ⟨_, e⟩ | ⟨_, _, e⟩ | ⟨h1, h2, e⟩ <;> rw [e] at hu
    · exact .inl hu.symm
    · exact .inr (.inl hu.symm)
    · exact .inr (.inr ⟨h1, h2, hu.symm⟩)
  have keyRej : ∀ u : State, Host.Outcome.next (φ := Fault) (ρ := Refusal) p.rejectWords = .next u →
      u = p ∨ u = p.refuse := by
    intro u hu
    injection hu with hu
    rcases State.rejectWords_cases p with e | e <;> rw [e] at hu
    · exact .inl hu.symm
    · exact .inr hu.symm
  have keyPlay : ∀ (u v : State), Host.Outcome.next (φ := Fault) (ρ := Refusal) u = .next v → v = u := by
    intro u v huv
    injection huv with huv
    exact huv.symm
  have hby : p.byHost = true := rfl
  have hid : p.hostId = h := rfl
  simp only [State.take, State.issue] at hs
  split at hs
  case h_2 => rcases keyRej _ hs with e | e <;> simp [e]
  case h_3 => rcases keyRej _ hs with e | e <;> simp [e]
  case h_1 i hdec =>
    have hlang := decodeTxn_lang hdec
    cases i
    case configure div =>
      rcases key _ _ _ hs with e | e | ⟨h1, h2, e⟩
      · exact .inl e
      · exact .inr (.inl e)
      · exact .inr (.inr (.inl ⟨h1, by simpa [State.byHost] using h2, div, e⟩))
    case showFrame base len =>
      rcases key _ _ _ hs with e | e | ⟨h1, h2, e⟩
      · exact .inl e
      · exact .inr (.inl e)
      · exact .inr (.inr (.inr (.inl ⟨h1, base, len, by simpa [State.byHost] using h2, e⟩)))
    case status =>
      rcases key _ _ _ hs with e | e | ⟨h1, h2, e⟩
      · exact .inl e
      · exact .inr (.inl e)
      · exact .inr (.inr (.inr (.inr ⟨h1, e⟩)))
    case writeFixedBlock | waitDone | irqHook | irqUnhook | memWrite =>
      rcases key _ _ _ hs with e | e | ⟨h1, h2, e⟩
      · exact .inl e
      · exact .inr (.inl e)
      · simp [State.byCtl, State.byRfl] at h2
    case refill =>
      have hx : exec .refill p = .next p.rejectWords := rfl
      rw [hx] at hs
      rcases keyRej _ hs with e | e <;> simp [e]
    case end0 | end1 | pair | bit0 | bit1 | latch | term => cases hlang
    all_goals rcases keyRej _ hs with e | e <;> simp [e]

/-- What a host's memory write can do (R42, R100). -/
theorem State.take_memWrite_cases {s t : State} {h a : Nat} {b : Byte} (hs : s.take (.memWrite h a b) = .next t) :
    t = s ∨ (s.live = true ∧ s.hstateAt h = some .idle ∧ a < s.par.memSize ∧ t = { s with sys := s.sys.write a b }) := by
  simp only [State.take, State.hostWrite] at hs
  split at hs
  · rename_i hl
    split at hs
    · injection hs with hs
      exact .inr ⟨hl.1, hl.2, ‹_›, hs.symm⟩
    · cases hs
  · injection hs with hs
    exact .inl hs.symm

/-- What acceptance can do: hold, or accept the waiting request of an idle, unlocked machine (R103). -/
theorem State.accept_cases (s : State) (h : Nat) :
    s.accept h = s ∨
    (s.live = true ∧ s.ctl = .idle ∧ s.lock = .free ∧
      ∃ base len, s.hstateAt h = some (.showReq base len) ∧ s.accept h = s.acceptShow h base len) := by
  unfold State.accept
  split
  · rename_i hl
    split
    · exact .inr ⟨hl.1, hl.2.1, hl.2.2, _, _, ‹_›, rfl⟩
    all_goals exact .inl rfl
  · exact .inl rfl

/-- What an accepted SHOW leads to: a fault, or the start of its frame (R103, R212). -/
theorem State.acceptShow_cases (s : State) (h : Nat) (base len : Word) :
    let p := { s with lock := .held h }.setHstate h .showActive
    (s.cfgValid = false ∧ s.acceptShow h base len = p.raiseFault .notConfigured (BitVec.ofNat 32 h)) ∨
    (s.cfgValid = true ∧ s.par.memSize < base.toNat + len.toNat ∧
      s.acceptShow h base len = p.raiseFault .busError base) ∨
    (s.cfgValid = true ∧ base.toNat + len.toNat ≤ s.par.memSize ∧
      s.acceptShow h base len = p.startFrame base len) := by
  intro p
  unfold State.acceptShow
  by_cases h1 : s.cfgValid = false
  · exact .inl ⟨h1, by simp [h1, p]⟩
  · have h1' : s.cfgValid = true := by simpa using h1
    by_cases h2 : s.par.memSize < base.toNat + len.toNat
    · exact .inr (.inl ⟨h1', h2, by simp [h1', h2, p]⟩)
    · exact .inr (.inr ⟨h1', by omega, by simp [h1', h2, p]⟩)

/-- The geometry of legal parameters (R7, R8). -/
theorem Params.wf_geometry {p : Params} (h : p.wf = true) : p.nMem % 16 = 0 ∧ 16 ≤ p.nMem ∧ p.latchLen = p.nMem := by
  simp only [Params.wf, Params.geometryWf, Bool.and_eq_true, decide_eq_true_eq] at h
  exact ⟨h.1.1.1.1, h.1.1.1.2, h.1.1.2⟩

/-- H and CAP of legal parameters divide N_MEM without a rest (R7). -/
theorem Params.wf_half {p : Params} (h : p.wf = true) : 2 * p.half = p.nMem ∧ 8 * p.cap = p.half ∧ 1 ≤ p.cap := by
  obtain ⟨h1, h2, -⟩ := Params.wf_geometry h
  unfold Params.cap Params.half
  omega

/-- A machine of legal parameters has a host (R10). -/
theorem Params.wf_kHosts {p : Params} (h : p.wf = true) : 0 < p.kHosts := by
  simp only [Params.wf, Params.platformWf, Bool.and_eq_true, decide_eq_true_eq] at h
  exact h.2.1.1.1.1

/-- LATCH_D of legal parameters is not 0 (R8). -/
theorem Params.wf_latchD {p : Params} (h : p.wf = true) : p.latchD ≠ 0#15 := by
  simp only [Params.wf, Params.timingWf, Bool.and_eq_true, bne_iff_ne, ne_eq] at h
  exact h.1.2.1.1.2

/-- The entries of the latch block are no END0 where LATCH_D is legal (R8, R85). -/
theorem entryDur0_latchEntry {p : Params} (h : p.wf = true) : entryDur0 (latchEntry p) ≠ 0#15 := by
  simpa [latchEntry] using Params.wf_latchD h

/-- After the latch block is written, every entry is LATCH (R103, R110). -/
theorem PMem.read_latchBlock {m : PMem} {p : Params} (hp : p.wf = true) (hm : m.length = p.nMem) (i : Nat) :
    (m.writeMany 0 (latchBlock p)).read i = latchEntry p := by
  obtain ⟨-, h16, hl⟩ := Params.wf_geometry hp
  have hlen : (latchBlock p).length = m.length := by simp [latchBlock, hl, hm]
  have hi : i % m.length < (latchBlock p).length := by rw [hlen]; exact Nat.mod_lt i (by omega)
  have hm' := PMem.read_mod (m.writeMany 0 (latchBlock p)) i
  rw [PMem.length_writeMany] at hm'
  have hw := PMem.read_writeMany m 0 (latchBlock p) (by omega) _ hi
  rw [Nat.zero_add] at hw
  rw [← hm', hw]
  simp [latchBlock]

@[simp] theorem PMem.length_encodeBytes (m : PMem) (p : Params) (base : Nat) (bs : List Byte) :
    (m.encodeBytes p base bs).length = m.length :=
  PMem.length_writeMany _ _ _

/-- The frame starts: the state SHOW acceptance leaves where nothing faults (R103's example). -/
theorem State.startFrame_run {s : State} (hs : s.sized) (hr : s.pbRun = false) (hf : s.refused = false)
    (base len : Word) :
    s.startFrame base len =
      { s with
        bufBase := base, bufLen := len, pos := 0#32, len := len, txoff := 0, rflEn := true,
        pmem := s.pmem.writeMany 0 (latchBlock s.par), rp := 0, cur := latchEntry s.par, elapsed := 0,
        done := false, thrPending := false, pbRun := true, ctl := .waiting } := by
  have h0 : (s.pmem.writeMany 0 (latchBlock s.par)).read 0 = latchEntry s.par :=
    PMem.read_latchBlock hs.1 hs.2 0
  have h1 := entryDur0_latchEntry hs.1
  simp [State.startFrame, State.hook, State.writeBlock, State.startPlayback, State.startWait, hr, hf, h0, h1]

/-- What completion can do: hold, or end the waiting session (R105). -/
theorem State.complete_cases (s : State) :
    s.complete = s ∨
    (s.live = true ∧ s.ctl = .waiting ∧ s.done = true ∧
      ((∃ h, s.lock = .held h ∧
          s.complete = { s.unhook with done := false, lock := .free, ctl := .idle }.setHstate h .idle) ∨
        (s.lock = .free ∧ s.complete = { s.unhook with done := false, lock := .free, ctl := .idle }))) := by
  unfold State.complete
  split
  · rename_i hl
    refine .inr ⟨hl.1, hl.2.1, hl.2.2, ?_⟩
    split
    · exact .inl ⟨_, ‹_›, rfl⟩
    · exact .inr ⟨‹_›, rfl⟩
  · exact .inl rfl

/-- What the refill choice can do: hold, or serve the pending event with the bytes it read (R140, R142). -/
theorem State.take_refill_cases {s t : State} (hs : s.take .refill = .next t) :
    (s.canRefill = false ∧ t = { s with issuer := .thr }) ∨
    (s.canRefill = true ∧ ∃ bs, s.memReads s.refillAddr s.refillCount = .ok bs ∧
      t = ({ s with issuer := .thr }).refillWith bs) := by
  have hr : ∀ a n, State.memReads { s with issuer := .thr } a n = s.memReads a n := by
    intro a n
    induction n generalizing a with
    | zero => rfl
    | succ n ih => simp [State.memReads, State.memRead, ih]
  have hx : s.take .refill =
      if s.canRefill then
        match s.memReads s.refillAddr s.refillCount with
        | .error f => .fault f
        | .ok bs => .next (({ s with issuer := .thr }).refillWith bs)
      else .next { s with issuer := .thr } := by
    rw [← hr]
    rfl
  rw [hx] at hs
  split at hs
  · split at hs
    · cases hs
    · injection hs with hs
      exact .inr ⟨‹_›, _, ‹_›, hs.symm⟩
  · rename_i hc
    injection hs with hs
    exact .inl ⟨Bool.eq_false_iff.mpr hc, hs.symm⟩

/-- What follows a latch: the end of playback, an Underrun, or the boundary's event and then the timeout check
(R162, R211). -/
theorem State.afterLatch_cases (s : State) :
    (entryDur0 s.cur = 0#15 ∧ s.afterLatch = s.endPlayback) ∨
    (entryDur0 s.cur ≠ 0#15 ∧ s.atBoundary = true ∧ s.raiseThr.faulted = true ∧ s.afterLatch = s.raiseThr) ∨
    (entryDur0 s.cur ≠ 0#15 ∧ s.atBoundary = true ∧ s.raiseThr.faulted = false ∧
      s.afterLatch = s.raiseThr.timeoutCheck) ∨
    (entryDur0 s.cur ≠ 0#15 ∧ s.atBoundary = false ∧ s.afterLatch = s.timeoutCheck) := by
  unfold State.afterLatch
  by_cases h0 : entryDur0 s.cur = 0#15
  · simp [h0]
  · cases hb : s.atBoundary
    · simp [h0]
    · cases hf : s.raiseThr.faulted <;> simp [h0]

end Sys2Proof.Machine
end

