-- ==== Sys2Proof/Laws/PerInstr.lean ====
section
/-! SUPPORT. Facts about each instruction as syntax, one lemma per constructor: how many words its encoding has (R80, R87,
R89, R92). -/

namespace Sys2Proof.Laws.WordCount

/-- The "words" of R89 for a transaction, one for an entry (R92). -/
def count : Instr → Nat
  | .configure _ => 2
  | .showFrame _ _ => 3
  | .writeFixedBlock _ entries => 2 + entries.length
  | .waitDone _ => 2
  | .memWrite _ _ => 3
  | _ => 1

/-- The encoding has the number of words the spec gives the instruction. -/
def Statement (i : Instr) : Prop := (encode i).length = count i

theorem end0 (x0 : Level) (x1 : Dur) (x2 : Level) : Statement (.end0 x0 x1 x2) := rfl

theorem end1 (x0 : Level) (x1 : Dur) (x2 : Level) : Statement (.end1 x0 x1 x2) := rfl

theorem pair (x0 : Level) (x1 : Dur) (x2 : Level) (x3 : Dur) : Statement (.pair x0 x1 x2 x3) := rfl

theorem bit0 : Statement .bit0 := rfl

theorem bit1 : Statement .bit1 := rfl

theorem latch : Statement .latch := rfl

theorem term : Statement .term := rfl

theorem configure (x0 : BitVec 8) : Statement (.configure x0) := rfl

theorem showFrame (x0 : Word) (x1 : Word) : Statement (.showFrame x0 x1) := rfl

theorem status : Statement .status := rfl

theorem writeFixedBlock (x0 : Bool) (x1 : List Word) : Statement (.writeFixedBlock x0 x1) := by
  simp [Statement, encode, count]; omega

theorem waitDone (x0 : Word) : Statement (.waitDone x0) := rfl

theorem irqHook : Statement .irqHook := rfl

theorem irqUnhook : Statement .irqUnhook := rfl

theorem memWrite (x0 : BitVec 16) (x1 : Word) : Statement (.memWrite x0 x1) := rfl

theorem refill : Statement .refill := rfl

theorem reserved0x0 (x0 : BitVec 28) : Statement (.reserved0x0 x0) := rfl

theorem reserved0x4 (x0 : BitVec 28) : Statement (.reserved0x4 x0) := rfl

theorem reserved0x5 (x0 : BitVec 28) : Statement (.reserved0x5 x0) := rfl

theorem reserved0x6 (x0 : BitVec 28) : Statement (.reserved0x6 x0) := rfl

theorem reserved0x7 (x0 : BitVec 28) : Statement (.reserved0x7 x0) := rfl

theorem reserved0x8 (x0 : BitVec 28) : Statement (.reserved0x8 x0) := rfl

theorem reserved0xF (x0 : BitVec 28) : Statement (.reserved0xF x0) := rfl

end Sys2Proof.Laws.WordCount
end

