-- ==== Sys2Proof/Tests/Slice0.lean ====
section
/-! SUPPORT. Tests: ill-formed terms, words written out from the spec's encodings, the spec's vectors (V1 to V83) on one
step, and for each statement with hypotheses a state that meets them. Expected values are those of
spec/95_test_vectors.md and the rules named. -/

namespace Sys2Proof.Tests

open Sys2Proof.Machine

/-! ## Well-formedness -/

theorem test_wf_end0_all_zero : (Instr.end0 false 0#15 false).wf = false := by decide

theorem test_wf_end1_no_duration : (Instr.end1 true 0#15 false).wf = false := by decide

theorem test_wf_pair_no_first_duration : (Instr.pair true 0#15 false 7#15).wf = false := by decide

theorem test_wf_pair_no_second_duration : (Instr.pair true 4#15 false 0#15).wf = false := by decide

theorem test_wf_pair_named :
    (Instr.pair true 4#15 false 7#15).wf = false ∧ (Instr.pair true 8#15 false 6#15).wf = false ∧
    (Instr.pair false 4#15 false 4#15).wf = false := by decide

theorem test_wf_block_empty : (Instr.writeFixedBlock false []).wf = false := by decide

theorem test_wf_block_too_long : (Instr.writeFixedBlock false (List.replicate 65536 wordLatch)).wf = false := by
  have h : ∀ es : List Word, es.length = 65536 → (Instr.writeFixedBlock false es).wf = false := by
    intro es h; simp [Instr.wf, h]
  exact h _ (List.length_replicate ..)

/-! ## Words of every constructor (R80 to R89, V10 to V23e, P1) -/

theorem test_decode_end0 : decodeEntry 0x00008000#32 = .end0 true 0#15 false := by decide

theorem test_decode_end0_dur1 : decodeEntry 0x7FFF0000#32 = .end0 false 32767#15 false := by decide

theorem test_decode_end1 : decodeEntry 0x80008009#32 = .end1 true 9#15 true := by decide

theorem test_decode_end1_low : decodeEntry 0x00000005#32 = .end1 false 5#15 false := by decide

theorem test_decode_pair : decodeEntry 0x00098003#32 = .pair true 3#15 false 9#15 := by decide

theorem test_decode_pair_full : decodeEntry 0xFFFFFFFF#32 = .pair true 32767#15 true 32767#15 := by decide

theorem test_decode_names :
    decodeEntry 0x00078004#32 = .bit0 ∧ decodeEntry 0x00068008#32 = .bit1 ∧ decodeEntry 0x00040004#32 = .latch ∧
    decodeEntry 0x00000000#32 = .term := by decide

theorem test_decode_configure : decodeTxn [0x1#32, 0x8#32] = .ok (.configure 8#8, []) := by decide

theorem test_decode_show : decodeTxn [0x2#32, 0x1000#32, 0x3#32] = .ok (.showFrame 0x1000#32 3#32, []) := by decide

theorem test_decode_status : decodeTxn [0x3#32] = .ok (.status, []) := by decide

theorem test_decode_write_fixed_block :
    decodeTxn [0x9#32, 0x00010002#32, 0x00040004#32, 0x00078004#32] =
      .ok (.writeFixedBlock true [0x00040004#32, 0x00078004#32], []) := by decide

theorem test_decode_wait_done : decodeTxn [0xA#32, 0x258#32] = .ok (.waitDone 600#32, []) := by decide

theorem test_decode_irq_hook : decodeTxn [0xB#32] = .ok (.irqHook, []) := by decide

theorem test_decode_irq_unhook : decodeTxn [0xC#32] = .ok (.irqUnhook, []) := by decide

theorem test_decode_mem_write : decodeTxn [0xD#32, 0x20#32, 0x0#32] = .ok (.memWrite 0x20#16 0#32, []) := by decide

theorem test_decode_refill : decodeTxn [0xE#32] = .ok (.refill, []) := by decide

theorem test_decode_reserved :
    decodeTxn [0x0#32] = .ok (.reserved0x0 0#28, []) ∧ decodeTxn [0x4#32] = .ok (.reserved0x4 0#28, []) ∧
    decodeTxn [0x5#32] = .ok (.reserved0x5 0#28, []) ∧ decodeTxn [0x6#32] = .ok (.reserved0x6 0#28, []) ∧
    decodeTxn [0x7#32] = .ok (.reserved0x7 0#28, []) ∧ decodeTxn [0x8#32] = .ok (.reserved0x8 0#28, []) ∧
    decodeTxn [0x1F#32] = .ok (.reserved0xF 1#28, []) := by decide

theorem test_decode_rejects :
    decodeTxn [0x11#32, 0x8#32] = .error .headerReserved ∧ decodeTxn [0x1#32, 0x108#32] = .error .argReserved ∧
    decodeTxn [0x9#32, 0x00020001#32, 0x0#32] = .error .argReserved ∧
    decodeTxn [0xD#32, 0x10000#32, 0x0#32] = .error .argReserved ∧
    decodeTxn [0x9#32, 0x2#32, 0x0#32] = .error .truncated ∧ decodeTxn [] = .error .noHeader := by decide

/-! ## The parameters' defaults (R5, R8) -/

theorem test_params_geometry :
    ({ nMem := 48, latchLen := 48 } : Params).wf = true ∧ ({ nMem := 16, latchLen := 16 } : Params).cap = 1 ∧
    ({ nMem := 40, latchLen := 40 } : Params).wf = false ∧ ({ nMem := 0, latchLen := 0 } : Params).wf = false ∧
    ({ latchLen := 32 } : Params).wf = false ∧ ({ kHosts := 0 } : Params).wf = false ∧
    ({ addrW := 33 } : Params).wf = false := by decide

theorem test_params_default_wf : ({} : Params).wf = true ∧ ({} : Params).latchLongEnough Config.divDefault = true := by
  decide

/-! ## States the tests start from -/

/-- The state after reset with every entry of the pulse memory LATCH. -/
def bench : State := { State.powerOn {} [] [] 0 with pmem := List.replicate 64 wordLatch }

/-- A running session whose latched entry is `cur` at `rp`, hooked, THR pending or not. -/
def playing (rp : Nat) (cur : Word) (thr : Bool) : State :=
  { bench with
    rp := rp, cur := cur, pbRun := true, rflEn := true, thrPending := thr, cfgValid := true, div := 8#8,
    lock := .held 0, ctl := .waiting, hstate := [.showActive, .idle, .idle, .idle] }

/-- An outcome is a next state with the property. -/
def next (o : Host.Outcome State Fault Refusal) (p : State → Bool) : Bool :=
  match o with
  | .next t => p t
  | .fault _ => false
  | .refused _ => false

/-! ## Playback (V40 to V49) -/

theorem test_pair_V40 :
    next (exec .bit1 { playing 5 wordBit1 false with pmem := PMem.write bench.pmem 6 wordBit0 }) (fun t =>
      t.trace == [⟨true, 8⟩, ⟨false, 6⟩] && t.elapsed == 14 && t.rp == 6 && t.cur == wordBit0 && !t.thrPending)
      = true := by decide

theorem test_latch_V41 :
    next (exec .latch (playing 31 wordLatch false)) (fun t =>
      t.trace == [⟨false, 4⟩, ⟨false, 4⟩] && t.rp == 32 && t.thrPending) = true := by decide

/-- The same with N_MEM = 16, where H = 8 (R7). -/
theorem test_latch_small_memory :
    next (exec .latch
      { playing 7 wordLatch false with
        par := { nMem := 16, latchLen := 16 }, pmem := List.replicate 16 wordLatch }) (fun t =>
      t.rp == 8 && t.thrPending) = true ∧
    next (exec .latch
      { playing 15 wordLatch false with
        par := { nMem := 16, latchLen := 16 }, pmem := List.replicate 16 wordLatch }) (fun t =>
      t.rp == 0 && t.thrPending) = true := by decide

theorem test_latch_V42 :
    next (exec .latch (playing 31 wordLatch true)) (fun t =>
      t.faulted && t.faultCode == 4#4 && t.faultInfo == 32#32 && t.trace.length == 2 && !t.pbRun && !t.dout &&
      !t.rflEn && !t.thrPending) = true := by decide

theorem test_bit0_V43 :
    next (exec .bit0 (playing 63 wordBit0 false)) (fun t => t.rp == 0 && t.cur == wordLatch && t.thrPending)
      = true := by decide

theorem test_latch_V44 :
    next (exec .latch { playing 31 wordLatch false with rflEn := false }) (fun t => t.rp == 32 && !t.thrPending)
      = true := by decide

theorem test_bit0_V45 :
    next (exec .bit0 { playing 31 wordBit0 false with pmem := PMem.write bench.pmem 32 wordTerm }) (fun t =>
      t.trace == [⟨true, 4⟩, ⟨false, 7⟩] && t.rp == 32 && t.cur == 0#32 && !t.pbRun && t.done && !t.thrPending)
      = true := by decide

theorem test_end1_V46 :
    next (step { playing 7 0x00008009#32 false with agenda := [.play] }) (fun t =>
      t.trace == [⟨true, 9⟩] && t.rp == 7 && !t.pbRun && t.done) = true := by decide

theorem test_pair_unequal_levels :
    next (exec (.pair false 3#15 true 9#15) (playing 0 0x80090003#32 false)) (fun t =>
      t.trace == [⟨false, 3⟩, ⟨true, 9⟩] && t.dout && t.elapsed == 12 && t.rp == 1) = true := by decide

theorem test_bit1_timeout_P6 :
    next (exec .bit0 { playing 7 wordBit0 false with elapsed := 592, par := { waitTimeout := 600 } }) (fun t =>
      t.faulted && t.faultCode == 3#4 && t.faultInfo == 603#32 && t.rp == 8) = true := by decide

theorem test_bit0_at_limit_V61 :
    next (exec .bit0 { playing 7 wordBit0 false with elapsed := 589, par := { waitTimeout := 600 } }) (fun t =>
      !t.faulted && t.elapsed == 600) = true := by decide

theorem test_end0_ends : next (exec (.end0 true 5#15 true) (playing 3 0x80058000#32 true)) (fun t =>
    t.trace == [] && t.done && !t.pbRun && !t.thrPending && t.rp == 3) = true := by decide

theorem test_term_ends : next (exec .term (playing 3 0#32 true)) (fun t => t.trace == [] && t.done && !t.pbRun)
    = true := by decide

/-! ## Control (V50 to V60) -/

theorem test_status_V50 : next (exec .status bench) (fun t => t.reply == some (0, 0#32)) = true := by decide

theorem test_status_V59 :
    next (exec .status { playing 0 wordLatch false with issuer := .host 1 }) (fun t => t.reply == some (1, 3#32)) = true := by
  decide

theorem test_configure_V51 : next (exec (.configure 8#8) bench) (fun t => t.div == 8#8 && t.cfgValid) = true := by decide

theorem test_configure_V52 :
    next (exec (.configure 0#8) bench) (fun t => t.faulted && t.faultCode == 1#4 && t.faultInfo == 0#32) = true := by
  decide

theorem test_configure_V53 :
    next (exec (.configure 8#8) { bench with installOk := false }) (fun t =>
      t.faulted && t.faultInfo == 1#32 && t.div == 0#8 && !t.cfgValid) = true := by decide

theorem test_configure_V54 :
    next (exec (.configure 4#8) { bench with cfgValid := true, div := 8#8 }) (fun t =>
      t.refused && !t.faulted && t.div == 8#8) = true := by decide

theorem test_show_issue :
    next (exec (.showFrame 0x1000#32 3#32) { bench with issuer := .host 2 }) (fun t =>
      t.hstate == [.idle, .idle, .showReq 0x1000#32 3#32, .idle]) = true := by decide

theorem test_show_high_address :
    next (exec (.showFrame 0x10000#32 3#32) { bench with par := { addrW := 16, memSize := 2 ^ 16 } }) (fun t =>
      t.refused && t.hstate == bench.hstate) = true := by decide

/-- Host `h` has requested the frame of `base`, `len`, and CTL's acceptance is next. -/
def requested (cfg : Bool) (par : Params) (h : Nat) (base len : Word) : State :=
  { bench with
    par := par, cfgValid := cfg, div := if cfg then 8#8 else 0#8, hstate := bench.hstate.set h (.showReq base len),
    agenda := [.accept h] }

theorem test_accept_V55 :
    next (step (requested false {} 3 0x1000#32 3#32)) (fun t =>
      t.faultCode == 2#4 && t.faultInfo == 3#32 && t.lock == .held 3 && t.hstateAt 3 == some .showActive &&
      t.ctl == .idle) = true := by decide

theorem test_accept_V56 :
    next (step (requested true { memSize := 0x10000 } 0 0xFFFF#32 2#32)) (fun t =>
      t.faultCode == 5#4 && t.faultInfo == 0xFFFF#32 && t.lock == .held 0) = true := by decide

theorem test_accept_V57 :
    next (step (requested true { memSize := 0x10000 } 0 0xFFFE#32 2#32)) (fun t =>
      !t.faulted && t.pbRun && t.ctl == .waiting && t.rflEn && t.len == 2#32 && t.cur == wordLatch) = true := by
  decide +kernel

theorem test_accept_V58 :
    next (step (requested true { memSize := 0x10000 } 0 0x10000#32 0#32)) (fun t => !t.faulted && t.pbRun) = true := by
  decide +kernel

theorem test_write_fixed_block_short :
    next (exec (.writeFixedBlock true [wordBit0, wordBit1]) { bench with issuer := .ctl }) (fun t =>
      t.pmem.read 0 == wordBit0 && t.pmem.read 1 == wordBit1 && t.pmem.read 2 == wordLatch && t.cur == wordBit0 &&
      t.pbRun && t.ctl == .waiting) = true := by decide

theorem test_write_fixed_block_V47 :
    next (exec (.writeFixedBlock false [wordTerm]) { bench with issuer := .ctl }) (fun t =>
      t.rp == 0 && t.cur == 0#32 && !t.pbRun && t.done && t.trace == []) = true := by decide

theorem test_write_fixed_block_lengths_V23 :
    next (exec (.writeFixedBlock false []) { bench with issuer := .ctl }) (fun t => t.refused) = true ∧
    next (exec (.writeFixedBlock false (List.replicate 65 wordLatch)) { bench with issuer := .ctl }) (fun t => t.refused)
      = true := by decide

theorem test_wait_done : next (exec (.waitDone 5#32) { bench with issuer := .ctl }) (fun t => t.ctl == .waiting) = true := by
  decide

theorem test_irq_hook : next (exec .irqHook { bench with issuer := .ctl }) (fun t => t.rflEn) = true := by decide

theorem test_irq_unhook :
    next (exec .irqUnhook { playing 0 wordLatch true with issuer := .ctl }) (fun t => !t.rflEn && !t.thrPending)
      = true := by decide

theorem test_mem_write_V60 :
    next (exec (.memWrite 64#16 0#32) { bench with issuer := .rfl }) (fun t =>
      t.pmem.read 0 == 0#32 && t.pmem.read 1 == wordLatch) = true := by decide

theorem test_mem_write_by_host_V23 :
    next (exec (.memWrite 0#16 0#32) bench) (fun t => t.refused && t.pmem == bench.pmem) = true := by decide

theorem test_reserved_refused :
    (next (exec (.reserved0x0 0#28) bench) (fun t => t.refused) && next (exec (.reserved0x4 0#28) bench) (fun t => t.refused) &&
    next (exec (.reserved0x5 0#28) bench) (fun t => t.refused) && next (exec (.reserved0x6 0#28) bench) (fun t => t.refused) &&
    next (exec (.reserved0x7 0#28) bench) (fun t => t.refused) && next (exec (.reserved0x8 0#28) bench) (fun t => t.refused) &&
    next (exec (.reserved0xF 0#28) bench) (fun t => t.refused)) = true := by decide

/-! ## REFILL (V30 to V37) -/

/-- A session with the event pending, its cursor as given and the buffer at 0x1000. -/
def pendingAt (pos len bufLen : Word) (txoff : Nat) (bytes : List Byte) : State :=
  { playing 32 wordLatch true with
    pos := pos, len := len, bufBase := 0x1000#32, bufLen := bufLen, txoff := txoff, issuer := .thr,
    sys := (List.range bytes.length).map fun k => (0x1000 + k, bytes.getD k 0#8) }

theorem test_refill_V30 :
    next (exec .refill (pendingAt 0#32 5#32 5#32 0 [1#8, 2#8, 3#8, 4#8, 5#8])) (fun t =>
      t.pos == 4#32 && t.len == 1#32 && t.txoff == 32 && !t.thrPending && t.pmem.read 7 == wordBit1 &&
      t.pmem.read 14 == wordBit1 && t.pmem.read 15 == wordBit0 && t.pmem.read 31 == wordBit0 &&
      t.pmem.read 32 == wordLatch) = true := by decide

theorem test_refill_V31 :
    next (exec .refill (pendingAt 4#32 1#32 5#32 32 [1#8, 2#8, 3#8, 4#8, 5#8])) (fun t =>
      t.pos == 4#32 && t.len == 0#32 && t.txoff == 0 && t.pmem.read 37 == wordBit1 && t.pmem.read 38 == wordBit0 &&
      t.pmem.read 39 == wordBit1 && t.pmem.read 40 == wordTerm && t.pmem.read 41 == wordLatch) = true := by decide

theorem test_refill_V32 :
    next (exec .refill (pendingAt 4#32 0#32 5#32 0 [])) (fun t =>
      t.pos == 4#32 && t.txoff == 32 && t.pmem.read 0 == wordTerm && t.pmem.read 1 == wordLatch) = true := by decide

theorem test_refill_V34 :
    next (exec .refill (pendingAt 4#32 4#32 8#32 32 [1#8, 1#8, 1#8, 1#8, 0xA5#8, 0#8, 0xFF#8, 0x10#8])) (fun t =>
      t.len == 0#32 && t.txoff == 0 && t.pmem.read 32 == wordBit1 && t.pmem.read 33 == wordBit0 &&
      t.pmem.read 59 == wordBit1 && t.pmem.read 0 == wordTerm) = true := by decide

/-! ## Whole-machine states -/

theorem test_reset_state_values :
    State.reset.pbRun = false ∧ State.reset.lock = .free ∧ State.reset.hstate = List.replicate 4 .idle ∧
    State.reset.sys.wf = true ∧ State.reset.statusWord = 0#32 := by decide

theorem test_complete :
    next (step { playing 24 0#32 false with pbRun := false, done := true, agenda := [.complete] }) (fun t =>
      t.lock == .free && t.ctl == .idle && !t.rflEn && !t.done && t.hstateAt 0 == some .idle) = true := by decide

theorem test_host_write :
    next (step { bench with agenda := [.memWrite 1 0x1000 0xA5#8] }) (fun t => t.sys == [(0x1000, 0xA5#8)]) = true := by
  decide

theorem test_host_write_unlisted :
    next (step { bench with sys := [(0x1000, 0xA5#8)], agenda := [.memWrite 1 0x1000 0#8] }) (fun t => t.sys == [])
      = true := by decide

theorem test_table_words_run :
    (next (step (bench.withFetchWord 32 0x00078004)) (fun t => t.trace == [⟨true, 4⟩, ⟨false, 7⟩])) = true ∧
    next (step (State.reset.withFetchWord 32 0xB)) (fun t => t.rflEn) = true ∧
    next (step (State.reset.withFetchWord 32 0xE)) (fun t => t.txoff == 32) = true ∧
    next (step (State.reset.withFetchWord 8 0x4)) (fun t => t.refused) = true := by decide

/-! ## Witnesses: for each statement with hypotheses, a state and operands that meet them all

One theorem a clause where the clauses have hypotheses of their own. -/

/-- The next state an outcome is, when it is one with the property. -/
theorem next_elim {o : Host.Outcome State Fault Refusal} {p : State → Bool} (h : next o p = true) :
    ∃ t, o = .next t ∧ p t = true := by
  cases o with
  | next t => exact ⟨t, rfl, h⟩
  | fault f => cases h
  | refused r => cases h

/-! ### States that meet the invariant -/

/-- A configured block between sessions; host 0 has requested the three bytes at 0x1000. -/
def ready (agenda : List Choice) : State := { requested true {} 0 0x1000#32 3#32 with agenda := agenda }

/-- A running session on the latch block, host 0's buffer the three bytes at 0x1000. -/
def session (rp : Nat) (thr : Bool) (agenda : List Choice) : State :=
  { playing rp wordLatch thr with bufBase := 0x1000#32, bufLen := 3#32, len := 3#32, agenda := agenda }

theorem bench_pmem_read (i : Nat) : bench.pmem.read i = wordLatch := by
  have h : i % 64 < 64 := Nat.mod_lt i (by decide)
  simp only [bench, PMem.read, List.length_replicate, List.getD_eq_getElem?_getD, List.getElem?_replicate, if_pos h,
    Option.getD_some]

theorem ready_inv {agenda : List Choice} (h : ∀ c ∈ agenda, c.own = true) : (ready agenda).Inv where
  sized := ⟨by show ({} : Params).wf = true; decide, rfl⟩
  hosts := rfl
  sysWf := rfl
  agendaOwn := h
  txoffHalf := .inl rfl
  rpInside := by show 0 < 64; decide
  lockOwner := by
    intro k
    match k with
    | 0 => simp [ready, requested, bench, State.powerOn, State.hstateAt]
    | 1 => simp [ready, requested, bench, State.powerOn, State.hstateAt]
    | 2 => simp [ready, requested, bench, State.powerOn, State.hstateAt]
    | 3 => simp [ready, requested, bench, State.powerOn, State.hstateAt]
    | k + 4 => simp [ready, requested, bench, State.powerOn, State.hstateAt]
  waitingLock := by intro _; simp [ready, requested, bench, State.powerOn, State.busy]
  faultRecord := by intro hf; cases hf
  noRecord := by intro _; exact ⟨rfl, rfl⟩
  idleLine := by intro _; exact ⟨rfl, rfl⟩
  runEntry := by intro hr; cases hr
  runWait := by intro hr; cases hr
  waitRun := by intro hw; cases hw
  idleOff := by intro _; exact ⟨rfl, rfl, rfl⟩
  cfgDiv := by show true = true ↔ (8#8 : BitVec 8) ≠ 0#8; decide
  waitCfg := by intro hw; cases hw
  bufInside := by intro hw; cases hw
  cursorInside := by intro hw; cases hw
  cursorRest := by intro hw; cases hw
  blockEntries := by intro hw; cases hw

theorem session_inv {rp : Nat} (hrp : rp < 64) (thr : Bool) {agenda : List Choice} (h : ∀ c ∈ agenda, c.own = true) :
    (session rp thr agenda).Inv where
  sized := ⟨by show ({} : Params).wf = true; decide, rfl⟩
  hosts := rfl
  sysWf := rfl
  agendaOwn := h
  txoffHalf := .inl rfl
  rpInside := hrp
  lockOwner := by
    intro k
    match k with
    | 0 => simp [session, playing, State.hstateAt]
    | 1 => simp [session, playing, State.hstateAt]
    | 2 => simp [session, playing, State.hstateAt]
    | 3 => simp [session, playing, State.hstateAt]
    | k + 4 => simp [session, playing, State.hstateAt]
  waitingLock := by intro _; simp [session, playing, State.busy]
  faultRecord := by intro hf; cases hf
  noRecord := by intro _; exact ⟨rfl, rfl⟩
  idleLine := by intro hr; cases hr
  runEntry := by intro _; show entryDur0 wordLatch ≠ 0#15; decide
  runWait := by intro _; exact ⟨rfl, rfl, rfl⟩
  waitRun := by intro _ _; exact ⟨rfl, rfl⟩
  idleOff := by intro hi; cases hi
  cfgDiv := by show true = true ↔ (8#8 : BitVec 8) ≠ 0#8; decide
  waitCfg := by intro _; rfl
  bufInside := by intro _; show (0x1000#32 : Word).toNat + (3#32 : Word).toNat ≤ 2 ^ 32; decide
  cursorInside := by intro _; show (0#32 : Word).toNat + (3#32 : Word).toNat ≤ (3#32 : Word).toNat; decide
  cursorRest := by
    intro _ _
    show (0#32 : Word).toNat + (3#32 : Word).toNat = (3#32 : Word).toNat ∧ (0#32 : Word).toNat % ({} : Params).cap = 0
    decide
  blockEntries := by
    intro _
    exact ⟨.inr (.inr (.inl (by show wordLatch = latchEntry {}; decide))),
      fun i => .inr (.inr (.inl ((bench_pmem_read i).trans (by show wordLatch = latchEntry {}; decide))))⟩

/-! ### Encoding -/

theorem witness_DecodeInvertsEncode :
    (Instr.pair true 32767#15 true 1#15).wf = true ∧ (Instr.end0 false 32767#15 false).wf = true ∧
    (Instr.end1 true 1#15 true).wf = true ∧ (Instr.writeFixedBlock true (List.replicate 64 wordLatch)).wf = true ∧
    (Instr.memWrite 0xFFFF#16 0xFFFFFFFF#32).wf = true ∧ (Instr.reserved0xF 0xFFFFFFF#28).wf = true := by decide

theorem witness_PairPlaysItsFields :
    pairHalves (decodeEntry 0x80018001#32) = some (true, 1#15, true, 1#15) ∧
    pairHalves (decodeEntry 0x00068008#32) = some (true, 8#15, false, 6#15) := by decide

theorem witness_DecodedWordsAreTheEncoding :
    decodeTxn [0x9#32, 0x00010001#32, 0x00040004#32, 0x5#32] =
      .ok (.writeFixedBlock true [0x00040004#32], [0x5#32]) := by decide

/-- A block on whose port a transaction waits. -/
def offered (who : Issuer) (ws : List Word) : State := { bench with agenda := [.issue who ws true] }

/-- What IllegalTransactionIsRefused assumes of an offered transaction. -/
def isOffered (s : State) (who : Issuer) (hdr : Word) (args : List Word) : Prop :=
  s.agenda = [.issue who (hdr :: args) true] ∧ who ≠ .thr ∧
  ({ s with agenda := [], issuer := who, installOk := true } : State).canIssue = true ∧ illegalWords s who hdr args

theorem witness_Illegal_reserved_code : isOffered (offered .ctl [0x4#32]) .ctl 0x4#32 [] :=
  ⟨rfl, by decide, by decide, .inl (by decide)⟩

theorem witness_Illegal_header_bit :
    isOffered (offered (.host 0) [0x11#32, 0x8#32]) (.host 0) 0x11#32 [0x8#32] :=
  ⟨rfl, by decide, by decide, .inr (.inl (by decide))⟩

theorem witness_Illegal_configure_bit :
    isOffered (offered (.host 0) [0x1#32, 0x108#32]) (.host 0) 0x1#32 [0x108#32] :=
  ⟨rfl, by decide, by decide, .inr (.inr (.inl ⟨by decide, _, _, rfl, by decide⟩))⟩

theorem witness_Illegal_show_base :
    isOffered { offered (.host 3) [0x2#32, 0x10000#32, 0x0#32] with par := { addrW := 16, memSize := 2 ^ 16 } }
      (.host 3) 0x2#32 [0x10000#32, 0x0#32] :=
  ⟨rfl, by decide, by decide, .inr (.inr (.inr (.inl ⟨by decide, _, _, rfl, by decide⟩)))⟩

theorem witness_Illegal_block_bit :
    isOffered (offered .ctl [0x9#32, 0x20001#32, 0x0#32]) .ctl 0x9#32 [0x20001#32, 0x0#32] :=
  ⟨rfl, by decide, by decide, .inr (.inr (.inr (.inr (.inl ⟨by decide, _, _, rfl, by decide⟩))))⟩

theorem witness_Illegal_offset_bit :
    isOffered (offered .rfl [0xD#32, 0x10000#32, 0x0#32]) .rfl 0xD#32 [0x10000#32, 0x0#32] :=
  ⟨rfl, by decide, by decide, .inr (.inr (.inr (.inr (.inr (.inl ⟨by decide, _, _, rfl, by decide⟩)))))⟩

theorem witness_Illegal_by_host : isOffered (offered (.host 0) [0xE#32]) (.host 0) 0xE#32 [] :=
  ⟨rfl, by decide, by decide, .inr (.inr (.inr (.inr (.inr (.inr (.inl ⟨0, rfl, by decide⟩))))))⟩

theorem witness_Illegal_by_ctl : isOffered (offered .ctl [0x3#32]) .ctl 0x3#32 [] :=
  ⟨rfl, by decide, by decide, .inr (.inr (.inr (.inr (.inr (.inr (.inr (.inl ⟨rfl, by decide⟩)))))))⟩

theorem witness_Illegal_by_rfl : isOffered (offered .rfl [0xB#32]) .rfl 0xB#32 [] :=
  ⟨rfl, by decide, by decide, .inr (.inr (.inr (.inr (.inr (.inr (.inr (.inr (.inl ⟨rfl, by decide⟩))))))))⟩

theorem witness_Illegal_block_length :
    isOffered (offered .ctl [0x9#32, 0x0#32]) .ctl 0x9#32 [0x0#32] ∧
    isOffered (offered .ctl (0x9#32 :: 0x41#32 :: List.replicate 65 wordLatch)) .ctl 0x9#32
      (0x41#32 :: List.replicate 65 wordLatch) :=
  ⟨⟨rfl, by decide, by decide, .inr (.inr (.inr (.inr (.inr (.inr (.inr (.inr (.inr (.inl
      ⟨by decide, _, _, rfl, .inl (by decide)⟩)))))))))⟩,
    ⟨rfl, by decide, by decide, .inr (.inr (.inr (.inr (.inr (.inr (.inr (.inr (.inr (.inl
      ⟨by decide, _, _, rfl, .inr (by decide)⟩)))))))))⟩⟩

theorem witness_Illegal_second_configure :
    isOffered { offered (.host 0) [0x1#32, 0x8#32] with cfgValid := true, div := 8#8 } (.host 0) 0x1#32 [0x8#32] :=
  ⟨rfl, by decide, by decide, .inr (.inr (.inr (.inr (.inr (.inr (.inr (.inr (.inr (.inr ⟨by decide, rfl⟩)))))))))⟩

/-! ### Steps -/

theorem witness_StepRunsTheDecodedInstruction :
    ((offered (.host 0) [0x3#32]).agenda = [.issue (.host 0) [0x3#32] true] ∧
      decode .txn [0x3#32] = .ok (.status, [])) ∧
    ((session 0 false [.play]).agenda = [.play] ∧
      decode .entry [(session 0 false [.play]).cur] = .ok (.latch, [])) ∧
    (session 32 true [.refill]).agenda = [.refill] := by decide

theorem witness_EmptyAgendaTakesAFreeChoice : State.reset.agenda = [] := rfl

/-! ### Playback -/

/-- What every clause of PairStep assumes. -/
def plays (s : State) (i : Instr) (h : Level × Dur × Level × Dur) : Prop :=
  pairHalves i = some h ∧ s.live = true ∧ s.pbRun = true

/-- The state of PairStep's `u`. -/
def after (s : State) (h : Level × Dur × Level × Dur) : State := s.played h.1 h.2.1 h.2.2.1 h.2.2.2

theorem witness_PairStep_ends :
    plays { session 31 true [] with pmem := PMem.write bench.pmem 32 wordTerm } .bit0 (true, 4#15, false, 7#15) ∧
    entryDur0
      (after { session 31 true [] with pmem := PMem.write bench.pmem 32 wordTerm } (true, 4#15, false, 7#15)).cur
        = 0#15 := by
  unfold plays; decide

theorem witness_PairStep_underrun :
    plays (session 63 true []) .latch (false, 4#15, false, 4#15) ∧
    entryDur0 (after (session 63 true []) (false, 4#15, false, 4#15)).cur ≠ 0#15 ∧
    (after (session 63 true []) (false, 4#15, false, 4#15)).raisesThr ∧
    (after (session 63 true []) (false, 4#15, false, 4#15)).thrPending = true := by
  unfold plays State.raisesThr; decide

theorem witness_PairStep_timeout :
    plays { session 31 false [] with par := { waitTimeout := 600 }, elapsed := 597 } (.pair true 1#15 true 3#15)
      (true, 1#15, true, 3#15) ∧
    entryDur0 (after { session 31 false [] with par := { waitTimeout := 600 }, elapsed := 597 }
      (true, 1#15, true, 3#15)).cur ≠ 0#15 ∧
    ¬((after { session 31 false [] with par := { waitTimeout := 600 }, elapsed := 597 }
      (true, 1#15, true, 3#15)).raisesThr ∧
      (after { session 31 false [] with par := { waitTimeout := 600 }, elapsed := 597 }
        (true, 1#15, true, 3#15)).thrPending = true) ∧
    (after { session 31 false [] with par := { waitTimeout := 600 }, elapsed := 597 }
      (true, 1#15, true, 3#15)).overTime := by
  unfold plays State.raisesThr State.overTime; decide

theorem witness_PairStep_event :
    plays (session 31 false []) .bit1 (true, 8#15, false, 6#15) ∧
    entryDur0 (after (session 31 false []) (true, 8#15, false, 6#15)).cur ≠ 0#15 ∧
    (after (session 31 false []) (true, 8#15, false, 6#15)).raisesThr ∧
    (after (session 31 false []) (true, 8#15, false, 6#15)).thrPending = false ∧
    ¬(after (session 31 false []) (true, 8#15, false, 6#15)).overTime := by
  unfold plays State.raisesThr State.overTime; decide

theorem witness_PairStep_goes_on :
    plays { session 62 true [] with par := { waitTimeout := 600 }, elapsed := 592 } .latch (false, 4#15, false, 4#15) ∧
    entryDur0 (after { session 62 true [] with par := { waitTimeout := 600 }, elapsed := 592 }
      (false, 4#15, false, 4#15)).cur ≠ 0#15 ∧
    ¬(after { session 62 true [] with par := { waitTimeout := 600 }, elapsed := 592 }
      (false, 4#15, false, 4#15)).raisesThr ∧
    ¬(after { session 62 true [] with par := { waitTimeout := 600 }, elapsed := 592 }
      (false, 4#15, false, 4#15)).overTime := by
  unfold plays State.raisesThr State.overTime; decide

theorem witness_End1Step : (session 5 true []).live = true ∧ (session 5 true []).pbRun = true := by decide

theorem witness_End0Step :
    isEnd0 .term = true ∧ isEnd0 (.end0 true 1#15 true) = true ∧ (session 5 true []).live = true ∧
    (session 5 true []).pbRun = true := by decide

theorem witness_PlaybackHoldsWhenNotRunning :
    (ready [.play]).agenda = [.play] ∧ (ready [.play]).pbRun = false := by decide

/-! ### Host transactions -/

/-- What the statements about host transactions assume. -/
def mayIssue (s : State) (h : Nat) : Bool :=
  s.live && decide (s.issuer = .host h) && decide (s.hstateAt h = some .idle)

theorem witness_ConfigureStep :
    mayIssue { bench with cfgValid := true, div := 8#8, issuer := .host 3 } 3 = true ∧
    mayIssue bench 0 = true ∧ bench.cfgValid = false ∧ (1#8 : BitVec 8) ≠ 0#8 ∧ bench.installOk = true ∧
    mayIssue { bench with installOk := false } 0 = true := by decide

theorem witness_ShowIssueStep :
    mayIssue { bench with issuer := .host 3 } 3 = true ∧ (0xFFFFFFFF#32 : Word).toNat < 2 ^ bench.par.addrW := by decide

theorem witness_StatusStep : mayIssue { session 0 false [] with issuer := .host 1 } 1 = true := by decide

theorem witness_BlockedHostHolds :
    ((ready [.memWrite 0 0 1#8]).hstateAt 0 ≠ some .idle ∧
      (ready [.memWrite 0 0 1#8]).agenda = [.memWrite 0 0 1#8]) ∧
    ((session 0 false [.issue (.host 0) [0x3#32] true]).hstateAt 0 ≠ some .idle ∧
      (session 0 false [.issue (.host 0) [0x3#32] true]).agenda = [.issue (.host 0) [0x3#32] true]) ∧
    (ready []).hstateAt 4 ≠ some .idle := by decide

theorem witness_HostWriteReadsBack :
    (ready [.memWrite 1 0xFFFFFFFF 7#8]).agenda = [.memWrite 1 0xFFFFFFFF 7#8] ∧
    (ready [.memWrite 1 0xFFFFFFFF 7#8]).live = true ∧
    (ready [.memWrite 1 0xFFFFFFFF 7#8]).hstateAt 1 = some .idle ∧
    0xFFFFFFFF < (ready [.memWrite 1 0xFFFFFFFF 7#8]).par.memSize ∧
    (ready [.memWrite 1 0xFFFFFFFF 7#8]).sys.wf = true := by decide

/-! ### The controller -/

theorem witness_HookAndUnhookSteps :
    ({ session 0 true [] with issuer := .ctl } : State).live = true ∧
    ({ session 0 true [] with issuer := .ctl } : State).issuer = .ctl := by decide

theorem witness_WaitDoneStep :
    ({ ready [] with issuer := .ctl } : State).live = true ∧ ({ ready [] with issuer := .ctl } : State).issuer = .ctl := by
  decide

theorem witness_WriteFixedBlockStep :
    ({ ready [] with issuer := .ctl } : State).live = true ∧ ({ ready [] with issuer := .ctl } : State).issuer = .ctl ∧
    ({ ready [] with issuer := .ctl } : State).pbRun = false ∧
    ({ session 0 true [] with issuer := .ctl } : State).live = true ∧
    ({ session 0 true [] with issuer := .ctl } : State).pbRun = true ∧
    (wordLatch :: List.replicate 63 wordBit0).length ≤ (ready []).par.nMem ∧ entryDur0 wordLatch ≠ 0#15 ∧
    (wordTerm :: []).length ≤ (session 0 true []).par.nMem ∧ entryDur0 wordTerm = 0#15 ∧
    ({ ready [] with issuer := .ctl } : State).sized ∧ ({ session 0 true [] with issuer := .ctl } : State).sized := by
  unfold State.sized; decide

/-- What every clause of AcceptanceStep assumes, the invariant apart. -/
def mayAccept (s : State) (h : Nat) (base len : Word) : Bool :=
  s.live && decide (s.ctl = .idle) && decide (s.lock = .free) && decide (s.hstateAt h = some (.showReq base len))

theorem witness_AcceptanceStep :
    (ready [.accept 0]).Inv ∧ mayAccept (ready [.accept 0]) 0 0x1000#32 3#32 = true ∧
    (ready [.accept 0]).cfgValid = true ∧
    (0x1000#32 : Word).toNat + (3#32 : Word).toNat ≤ (ready [.accept 0]).par.memSize :=
  ⟨ready_inv (by decide), by decide, by decide, by decide⟩

/-- The same block before it is configured. -/
theorem unconfigured_inv : ({ ready [.accept 0] with cfgValid := false, div := 0#8 } : State).Inv :=
  { ready_inv (agenda := [.accept 0]) (by decide) with
    cfgDiv := by decide
    waitCfg := by intro hw; cases hw }

theorem witness_AcceptanceStep_not_configured :
    ({ ready [.accept 0] with cfgValid := false, div := 0#8 } : State).Inv ∧
    mayAccept { ready [.accept 0] with cfgValid := false, div := 0#8 } 0 0x1000#32 3#32 = true :=
  ⟨unconfigured_inv, by decide⟩

/-- The same block with a system memory one byte too small for the request. -/
theorem small_memory_inv : ({ ready [.accept 0] with par := { memSize := 0x1002 } } : State).Inv :=
  { ready_inv (agenda := [.accept 0]) (by decide) with
    sized := ⟨by decide, rfl⟩
    hosts := rfl
    rpInside := by decide
    bufInside := by intro hw; cases hw
    blockEntries := by intro hw; cases hw }

theorem witness_AcceptanceStep_bus_error :
    ({ ready [.accept 0] with par := { memSize := 0x1002 } } : State).Inv ∧
    mayAccept { ready [.accept 0] with par := { memSize := 0x1002 } } 0 0x1000#32 3#32 = true ∧
    ({ ready [.accept 0] with par := { memSize := 0x1002 } } : State).par.memSize <
      (0x1000#32 : Word).toNat + (3#32 : Word).toNat :=
  ⟨small_memory_inv, by decide, by decide⟩

theorem witness_AcceptanceIssuesItsOperations :
    (ready [.accept 0]).Inv ∧ mayAccept (ready [.accept 0]) 0 0x1000#32 3#32 = true ∧
    (ready [.accept 0]).agenda = [.accept 0] ∧ (ready [.accept 0]).cfgValid = true ∧
    (0x1000#32 : Word).toNat + (3#32 : Word).toNat ≤ (ready [.accept 0]).par.memSize :=
  ⟨ready_inv (by decide), by decide, rfl, rfl, by decide⟩

theorem witness_CompletionStep :
    ({ session 24 false [.complete] with pbRun := false, done := true } : State).agenda = [.complete] ∧
    ({ session 24 false [.complete] with pbRun := false, done := true } : State).done = true ∧
    ({ session 24 false [.complete] with pbRun := false, done := true } : State).live = true ∧
    ({ session 24 false [.complete] with pbRun := false, done := true } : State).ctl = .waiting ∧
    ({ session 24 false [.complete] with pbRun := false, done := true } : State).lock = .held 0 ∧
    0 < ({ session 24 false [.complete] with pbRun := false, done := true } : State).hstate.length := by decide

/-! ### The refill engine -/

theorem witness_MemWriteStep :
    ({ session 0 true [] with issuer := .rfl } : State).sized ∧
    ({ session 0 true [] with issuer := .rfl } : State).live = true ∧
    ({ session 0 true [] with issuer := .rfl } : State).issuer = .rfl := by
  unfold State.sized; decide

/-- What every statement about a served refill assumes. -/
def mayRefill (s : State) : Bool :=
  s.par.wf && decide (s.pmem.length = s.par.nMem) && s.live && decide (s.issuer = .thr) && s.thrPending && s.rflEn

theorem witness_RefillMoreThanAHalf :
    mayRefill (pendingAt 0#32 5#32 5#32 0 []) = true ∧
    (pendingAt 0#32 5#32 5#32 0 []).par.cap < (pendingAt 0#32 5#32 5#32 0 []).len.toNat ∧
    (pendingAt 0#32 5#32 5#32 0 []).bufBase.toNat + (pendingAt 0#32 5#32 5#32 0 []).pos.toNat +
        (pendingAt 0#32 5#32 5#32 0 []).par.cap ≤
      (pendingAt 0#32 5#32 5#32 0 []).par.memSize := by decide

theorem witness_RefillNothingLeft :
    mayRefill (pendingAt 4#32 0#32 4#32 32 []) = true ∧ (pendingAt 4#32 0#32 4#32 32 []).len = 0#32 := by decide

theorem witness_RefillPartialRemainder :
    mayRefill (pendingAt 4#32 4#32 8#32 32 []) = true ∧ (pendingAt 4#32 4#32 8#32 32 []).len ≠ 0#32 ∧
    (pendingAt 4#32 4#32 8#32 32 []).len.toNat ≤ (pendingAt 4#32 4#32 8#32 32 []).par.cap ∧
    (pendingAt 4#32 4#32 8#32 32 []).bufBase.toNat + (pendingAt 4#32 4#32 8#32 32 []).pos.toNat +
      (pendingAt 4#32 4#32 8#32 32 []).len.toNat ≤ (pendingAt 4#32 4#32 8#32 32 []).par.memSize := by decide

theorem witness_RefillHoldsWithoutAnEvent :
    (session 5 false [.refill]).agenda = [.refill] ∧ (session 5 false [.refill]).thrPending = false ∧
    ({ session 5 true [.refill] with rflEn := false } : State).rflEn = false := by decide

theorem witness_ReservedCodeIsRefused :
    isReserved (.reserved0x0 0#28) = true ∧ isReserved (.reserved0x4 1#28) = true ∧
    isReserved (.reserved0x5 0#28) = true ∧ isReserved (.reserved0x6 0#28) = true ∧
    isReserved (.reserved0x7 0#28) = true ∧ isReserved (.reserved0x8 0#28) = true ∧
    isReserved (.reserved0xF 0xFFFFFFF#28) = true ∧ bench.canIssue = true := by decide

/-! ### The whole machine -/

theorem witness_ResetEventStep : (session 5 true [.reset]).agenda = [.reset] := rfl

theorem witness_HaltedMachineHolds :
    ({ ready [.accept 0] with refused := true } : State).live = false ∧
    ({ ready [.accept 0] with refused := true } : State).agenda = [.accept 0] ∧ Choice.accept 0 ≠ .reset := by decide

theorem witness_FaultEntry :
    (session 31 true [.play]).Inv ∧ (session 31 true [.play]).faulted = false ∧
    ∃ t, step (session 31 true [.play]) = .next t ∧ t.faulted = true := by
  have h : next (step (session 31 true [.play])) (fun t => t.faulted) = true := by decide
  exact ⟨session_inv (by decide) _ (by decide), rfl, next_elim h⟩

theorem witness_LockDiscipline :
    (∃ t, step (ready [.accept 0]) = .next t ∧ t.lock = .held 0) ∧ (ready [.accept 0]).lock = .free ∧
    (Choice.accept 0).own = true ∧
    (∃ t, step (session 5 false [.play]) = .next t) ∧ (session 5 false [.play]).lock = .held 0 ∧
    Choice.play.own = true := by
  have h : next (step (ready [.accept 0])) (fun t => decide (t.lock = .held 0)) = true := by decide +kernel
  obtain ⟨t, ht, hl⟩ := next_elim h
  have h' : next (step (session 5 false [.play])) (fun _ => true) = true := by decide
  obtain ⟨u, hu, -⟩ := next_elim h'
  exact ⟨⟨t, ht, of_decide_eq_true hl⟩, rfl, rfl, ⟨u, hu⟩, rfl, rfl⟩

theorem witness_CursorWriters :
    (∃ t, step (session 31 false [.play]) = .next t) ∧ Choice.play.own = true ∧ (∀ h, Choice.play ≠ .accept h) ∧
    Choice.play ≠ .refill ∧ Choice.play ≠ .reset := by
  have h : next (step (session 31 false [.play])) (fun _ => true) = true := by decide
  obtain ⟨t, ht, -⟩ := next_elim h
  exact ⟨⟨t, ht⟩, rfl, by simp, by simp, by simp⟩

theorem witness_ConfigurationIsStable :
    (ready [.accept 0]).cfgValid = true ∧ Choice.accept 0 ≠ .reset ∧ ∃ t, step (ready [.accept 0]) = .next t := by
  have h : next (step (ready [.accept 0])) (fun _ => true) = true := by decide
  obtain ⟨t, ht, -⟩ := next_elim h
  exact ⟨rfl, by simp, t, ht⟩

theorem witness_ParametersNeverChange : ∃ t, step (session 5 true [.reset]) = .next t := by
  have h : next (step (session 5 true [.reset])) (fun _ => true) = true := by decide
  obtain ⟨t, ht, -⟩ := next_elim h
  exact ⟨t, ht⟩

theorem witness_OnlyPlaybackEmits :
    (∃ t, step (session 5 false [.play]) = .next t) ∧ Choice.play ≠ .reset ∧
    (∃ t, step (session 5 true [.refill]) = .next t) ∧ Choice.refill ≠ .reset := by
  have h : next (step (session 5 false [.play])) (fun _ => true) = true := by decide
  obtain ⟨t, ht, -⟩ := next_elim h
  have h' : next (step (session 5 true [.refill])) (fun _ => true) = true := by decide
  obtain ⟨u, hu, -⟩ := next_elim h'
  exact ⟨⟨t, ht⟩, by simp, ⟨u, hu⟩, by simp⟩

theorem witness_HostsAndBlockKeepApart :
    (∃ t, step (session 5 false [.memWrite 1 0x1000 7#8]) = .next t) ∧
    (∃ t, step (session 5 false [.issue (.host 2) [0x3#32] true]) = .next t) ∧
    ∃ t, step (session 5 true [.refill]) = .next t := by
  have h : next (step (session 5 false [.memWrite 1 0x1000 7#8])) (fun _ => true) = true := by decide
  obtain ⟨t, ht, -⟩ := next_elim h
  have h' : next (step (session 5 false [.issue (.host 2) [0x3#32] true])) (fun _ => true) = true := by decide
  obtain ⟨u, hu, -⟩ := next_elim h'
  have h'' : next (step (session 5 true [.refill])) (fun _ => true) = true := by decide
  obtain ⟨v, hv, -⟩ := next_elim h''
  exact ⟨⟨t, ht⟩, ⟨u, hu⟩, v, hv⟩

theorem witness_SpecStepsDoNotStop :
    (session 32 true [.refill]).Inv ∧ (session 32 true [.refill]).agenda = [.refill] ∧
    (ready [.memWrite 0 (2 ^ 32) 1#8]).Inv :=
  ⟨session_inv (by decide) _ (by decide), rfl, ready_inv (by decide)⟩

theorem witness_InvariantAtReset : ({ memSize := 0x1002 } : Params).wf = true ∧ Memory.wf [(0x1000, 7#8)] = true := by
  decide

theorem witness_EveryStepKeepsTheInvariant :
    (session 31 false [.play]).Inv ∧ ∃ t, step (session 31 false [.play]) = .next t := by
  have h : next (step (session 31 false [.play])) (fun _ => true) = true := by decide
  obtain ⟨t, ht, -⟩ := next_elim h
  exact ⟨session_inv (by decide) _ (by decide), t, ht⟩

theorem witness_PlaybackMakesProgress :
    (session 31 false [.play]).Inv ∧ (session 31 false [.play]).live = true ∧ (session 31 false [.play]).pbRun = true ∧
    (session 31 false [.play]).agenda = [.play] :=
  ⟨session_inv (by decide) _ (by decide), by decide, rfl, rfl⟩

theorem witness_RefillDeadline :
    (∀ k, entryDur0 ((session 32 true (List.replicate 32 .play)).pmem.read k) ≠ 0#15 ∧
      entryDur1 ((session 32 true (List.replicate 32 .play)).pmem.read k) ≠ 0#15) ∧
    (session 32 true (List.replicate 32 .play)).agenda =
      List.replicate (session 32 true (List.replicate 32 .play)).par.half .play ++ [] ∧
    (session 32 true (List.replicate 32 .play)).live = true ∧ (session 32 true (List.replicate 32 .play)).pbRun = true ∧
    (session 32 true (List.replicate 32 .play)).rflEn = true ∧
    (session 32 true (List.replicate 32 .play)).thrPending = true ∧
    (session 32 true (List.replicate 32 .play)).par.wf = true ∧
    (session 32 true (List.replicate 32 .play)).pmem.length = (session 32 true (List.replicate 32 .play)).par.nMem ∧
    (session 32 true (List.replicate 32 .play)).rp = (session 32 true (List.replicate 32 .play)).par.half ∧
    (session 0 true (List.replicate 32 .play)).rp = 0 ∧
    entryDur0 (session 32 true (List.replicate 32 .play)).cur ≠ 0#15 ∧
    entryDur1 (session 32 true (List.replicate 32 .play)).cur ≠ 0#15 ∧
    (session 32 true (List.replicate 32 .play)).elapsed +
        (session 32 true (List.replicate 32 .play)).par.half * 65534 ≤
      (session 32 true (List.replicate 32 .play)).par.waitTimeout := by
  refine ⟨fun k => ?_, ?_⟩
  · have h : (session 32 true (List.replicate 32 .play)).pmem.read k = wordLatch := bench_pmem_read k
    rw [h]; decide
  · decide

/-! ### Frames -/

/-- Host 0's frame of no bytes requested, and a schedule that sends it: 32 entries, the refill that writes the
terminator, 32 entries. -/
def emptyFrame : State :=
  { requested true {} 0 0x1000#32 0#32 with
    agenda := .accept 0 :: (List.replicate 32 .play ++ .refill :: List.replicate 32 .play) }

theorem emptyFrame_inv : emptyFrame.Inv :=
  { ready_inv (agenda := emptyFrame.agenda) (by decide) with
    lockOwner := by
      intro k
      match k with
      | 0 => simp [emptyFrame, requested, bench, State.powerOn, State.hstateAt]
      | 1 => simp [emptyFrame, requested, bench, State.powerOn, State.hstateAt]
      | 2 => simp [emptyFrame, requested, bench, State.powerOn, State.hstateAt]
      | 3 => simp [emptyFrame, requested, bench, State.powerOn, State.hstateAt]
      | k + 4 => simp [emptyFrame, requested, bench, State.powerOn, State.hstateAt]
    blockEntries := by intro hw; cases hw }

theorem witness_FrameWaveform :
    emptyFrame.Inv ∧ (∀ c ∈ List.replicate 32 Choice.play ++ .refill :: List.replicate 32 .play,
      keepsFrame 0x1000#32 0#32 c = true) ∧
    mayAccept emptyFrame 0 0x1000#32 0#32 = true ∧ emptyFrame.cfgValid = true ∧
    (0x1000#32 : Word).toNat + (0#32 : Word).toNat ≤ emptyFrame.par.memSize ∧
    ∃ t, Host.Core.run Sys2Proof.core 66 emptyFrame = .next t ∧ t.live = true ∧ t.done = true := by
  have h : next (Host.Core.run Sys2Proof.core 66 emptyFrame) (fun t => t.live && t.done) = true := by
    decide +kernel
  obtain ⟨t, ht, hp⟩ := next_elim h
  exact ⟨emptyFrame_inv, by decide, by decide, rfl, by decide, t, ht, (Bool.and_eq_true _ _ ▸ hp).1, (Bool.and_eq_true _ _ ▸ hp).2⟩

theorem witness_EveryFrameCanComplete :
    (ready []).Inv ∧ mayAccept (ready []) 0 0x1000#32 3#32 = true ∧ (ready []).cfgValid = true ∧
    (0x1000#32 : Word).toNat + (3#32 : Word).toNat ≤ (ready []).par.memSize ∧
    unitsOf (frame (ready []).par ((ready []).bufferBytes 0x1000#32 3#32)) ≤ (ready []).par.waitTimeout :=
  ⟨ready_inv (by decide), by decide, by decide, by decide, by decide +kernel⟩

/-- Two pixels with white, their bytes in system memory at 0x1000. -/
def twoPixels : List Pixel := [⟨1#8, 2#8, 3#8, some 4#8⟩, ⟨5#8, 6#8, 7#8, some 8#8⟩]

/-- Their buffer, written out: green, red, blue, white. -/
def pixelState : State :=
  { bench with
    sys := [(0x1000, 2#8), (0x1001, 1#8), (0x1002, 3#8), (0x1003, 4#8), (0x1004, 6#8), (0x1005, 5#8), (0x1006, 7#8),
      (0x1007, 8#8)] }

theorem witness_PixelPlacement :
    pixelState.bufferBytes 0x1000#32 8#32 = pixelBuffer twoPixels ∧ (∀ px ∈ twoPixels, px.white.isSome = true) ∧
    pixelState.bufferBytes 0x1000#32 3#32 = pixelBuffer [⟨1#8, 2#8, 3#8, none⟩] := by decide

end Sys2Proof.Tests
end

section
/-! SUPPORT. What one step is, by the agenda (R13), and the obligations about it. -/

namespace Sys2Proof.Machine

/-! ## The step, by the agenda -/

/-- R13: the next choice is taken off the agenda and carried out. -/
theorem step_of_agenda_cons {s : State} {c : Choice} {rest : List Choice} (h : s.agenda = c :: rest) :
    step s = State.take { s with agenda := rest } c := by
  simp only [step, State.takeNext, h]

/-- Log entry 1: an empty agenda leaves the choice free. -/
theorem step_of_agenda_nil {s : State} (h : s.agenda = []) : step s = s.takeFree := by
  simp only [step, State.takeNext, h]

/-- R92, R101: words that are one whole transaction are run from the port they are offered on. -/
theorem State.issue_of_decodeTxn {words : List Word} {i : Instr} (h : decodeTxn words = .ok (i, [])) (s : State)
    (who : Issuer) (ok : Bool) : s.issue who words ok = exec i { s with issuer := who, installOk := ok } := by
  simp only [State.issue, h]

/-! ## The free choice -/

theorem State.takeFree_of_own {s : State} (h : (Config.freeChoice s.draws).own = true) :
    s.takeFree = State.take { s with draws := s.draws + 1 } (Config.freeChoice s.draws) := if_pos h

theorem State.takeFree_of_not_own {s : State} (h : ¬(Config.freeChoice s.draws).own = true) :
    s.takeFree = .next { s with draws := s.draws + 1 } := if_neg h

/-- A choice taken with nothing on the agenda is the step with that one choice on it. -/
theorem State.take_eq_step_singleton {s : State} (h : s.agenda = []) (c : Choice) :
    s.take c = step { s with agenda := [c] } := by
  rw [step_of_agenda_cons (s := { s with agenda := [c] }) rfl, ← h]

/-! ## The obligations -/

/-- Settles O7: the step takes the choice off the agenda, and what the choice names is `exec` of the decoded
instruction. -/
theorem stepRunsTheDecodedInstruction : Obligations.StepRunsTheDecodedInstruction := by
  refine ⟨fun s who ws ok rest i hs hi => ?issue, fun s rest i hs hi => ?play, fun s rest hs => ?refill⟩
  case issue =>
    rw [step_of_agenda_cons hs]
    exact State.issue_of_decodeTxn hi _ who ok
  case play =>
    obtain rfl : decodeEntry s.cur = i := by simpa [decode] using hi
    exact step_of_agenda_cons hs
  case refill => exact step_of_agenda_cons hs

/-- Settles O8: the free choice is one of the spec's own and is taken as if it stood on the agenda, or it is none and the
step is a hold. -/
theorem emptyAgendaTakesAFreeChoice : Obligations.EmptyAgendaTakesAFreeChoice := by
  intro s hs
  rw [step_of_agenda_nil hs]
  by_cases hown : (Config.freeChoice s.draws).own = true
  · refine .inr ⟨_, hown, ?_⟩
    rw [State.takeFree_of_own hown]
    exact State.take_eq_step_singleton (s := { s with draws := s.draws + 1 }) hs _
  · exact .inl (State.takeFree_of_not_own hown)

end Sys2Proof.Machine
end

section
/-! SUPPORT. The invariant at reset (R44), kept by each shared operation, by each choice's step, and by every step. -/

namespace Sys2Proof.Machine

/-! ## Inversion lemmas of the operations a step is made of -/

/-- CONFIGURE's effect is a fault or a legal divider taken over (R102, R212). -/
theorem State.doConfigure_cases (s : State) (div : BitVec 8) :
    (∃ info, s.doConfigure div = s.raiseFault .configFault info) ∨
    (div ≠ 0#8 ∧ s.doConfigure div = { s with div := div, cfgValid := true }) := by
  unfold State.doConfigure
  split
  · exact .inl ⟨_, rfl⟩
  · split
    · exact .inr ⟨‹_›, rfl⟩
    · exact .inl ⟨_, rfl⟩

/-- The states a PB_STEP that latches the next entry can leave: playback ended, a fault, the event set, or nothing
more (R162, R211). -/
theorem State.afterLatch_results (s : State) :
    (entryDur0 s.cur = 0#15 ∧ s.afterLatch = s.endPlayback) ∨
    (entryDur0 s.cur ≠ 0#15 ∧
      (s.afterLatch = s ∨ s.afterLatch = { s with thrPending := true } ∨
        ∃ k info, s.afterLatch = s.raiseFault k info)) := by
  have check : ∀ u : State, u.timeoutCheck = u ∨ ∃ info, u.timeoutCheck = u.raiseFault .waitTimeout info := by
    intro u
    rcases u.timeoutCheck_cases with ⟨-, e⟩ | ⟨-, -, -, e⟩
    · exact .inl e
    · exact .inr ⟨_, e⟩
  rcases s.afterLatch_cases with ⟨h0, e⟩ | ⟨h0, -, hf, e⟩ | ⟨h0, -, hf, e⟩ | ⟨h0, -, e⟩
  · exact .inl ⟨h0, e⟩
  · refine .inr ⟨h0, ?_⟩
    rcases s.raiseThr_cases with ⟨-, er⟩ | ⟨-, -, er⟩ | ⟨-, -, er⟩ <;> rw [e, er]
    · exact .inl rfl
    · exact .inr (.inr ⟨_, _, rfl⟩)
    · exact .inr (.inl rfl)
  · refine .inr ⟨h0, ?_⟩
    rcases s.raiseThr_cases with ⟨-, er⟩ | ⟨-, -, er⟩ | ⟨-, -, er⟩
    · rw [e, er]
      rcases check s with ec | ⟨info, ec⟩ <;> rw [ec]
      · exact .inl rfl
      · exact .inr (.inr ⟨_, _, rfl⟩)
    · rw [er] at hf
      cases hf
    · rw [e, er]
      rcases check { s with thrPending := true } with ec | ⟨info, ec⟩ <;> rw [ec]
      · exact .inr (.inl rfl)
      · exact .inr (.inr ⟨_, _, rfl⟩)
  · refine .inr ⟨h0, ?_⟩
    rcases check s with ec | ⟨info, ec⟩ <;> rw [e, ec]
    · exact .inl rfl
    · exact .inr (.inr ⟨_, _, rfl⟩)

/-- HSTATE after one host's is set (R41). -/
@[simp] theorem State.hstateAt_setHstate (s : State) (h : Nat) (x : HostState) (k : Nat) :
    (s.setHstate h x).hstateAt k = if h = k then (s.hstateAt k).map (fun _ => x) else s.hstateAt k :=
  List.getElem?_set'

/-! ## The entries the block writes (R94) -/

theorem isBlockEntry_bitEntry (p : Params) (b : Bool) : isBlockEntry p (bitEntry p b) := by
  cases b
  · exact .inl rfl
  · exact .inr (.inl rfl)

theorem isBlockEntry_latchEntry (p : Params) : isBlockEntry p (latchEntry p) := .inr (.inr (.inl rfl))

theorem isBlockEntry_wordTerm (p : Params) : isBlockEntry p wordTerm := .inr (.inr (.inr rfl))

theorem isBlockEntry_of_mem_bytesEntries {p : Params} {bs : List Byte} {w : Word} (h : w ∈ bytesEntries p bs) :
    isBlockEntry p w := by
  simp only [bytesEntries, byteEntries, List.mem_flatMap, List.mem_map] at h
  obtain ⟨_, _, b, _, rfl⟩ := h
  exact isBlockEntry_bitEntry p b

/-- What every entry read meets, and the entry written, every entry read after the write meets. -/
theorem PMem.forall_read_write {P : Word → Prop} {m : PMem} (hm : 0 < m.length) (h : ∀ i, P (m.read i)) (j : Nat)
    {w : Word} (hw : P w) (i : Nat) : P ((m.write j w).read i) := by
  rw [PMem.read_write hm]
  split
  · exact hw
  · exact h i

theorem PMem.forall_read_writeMany {P : Word → Prop} {m : PMem} (hm : 0 < m.length) (h : ∀ i, P (m.read i)) (j : Nat)
    {ws : List Word} (hws : ∀ w ∈ ws, P w) (i : Nat) : P ((m.writeMany j ws).read i) := by
  induction ws generalizing m j with
  | nil => exact h i
  | cons w ws ih =>
    obtain ⟨hw, hws⟩ := List.forall_mem_cons.mp hws
    exact ih (by simpa using hm) (PMem.forall_read_write hm h j hw) _ hws

/-- The latch block fills the pulse memory with the block's entries (R94, R103). -/
theorem PMem.isBlockEntry_latchBlock {m : PMem} {p : Params} (hp : p.wf = true) (hm : m.length = p.nMem) (i : Nat) :
    isBlockEntry p ((m.writeMany 0 (latchBlock p)).read i) := by
  rw [PMem.read_latchBlock hp hm]
  exact isBlockEntry_latchEntry p

/-- The bytes a refill encodes keep the pulse memory to the block's entries (R94, R147). -/
theorem PMem.isBlockEntry_encodeBytes {m : PMem} {p : Params} (hm : 0 < m.length)
    (h : ∀ i, isBlockEntry p (m.read i)) (base : Nat) (bs : List Byte) (i : Nat) :
    isBlockEntry p ((m.encodeBytes p base bs).read i) :=
  PMem.forall_read_writeMany hm h base (fun _ => isBlockEntry_of_mem_bytesEntries) i

/-! ## The invariant at reset -/

/-- Every machine of legal parameters, with a canonical system memory and only steps of the spec on its agenda, meets
the invariant after reset (R44). -/
theorem State.powerOn_inv {par : Params} {sys : Memory} {agenda : List Choice} (hp : par.wf = true)
    (hsys : sys.wf = true) (hag : ∀ c ∈ agenda, c.own = true) (draws : Nat) :
    (State.powerOn par sys agenda draws).Inv where
  sized := ⟨hp, length_freshPmem _ _⟩
  hosts := List.length_replicate
  sysWf := hsys
  agendaOwn := hag
  txoffHalf := .inl rfl
  rpInside := by
    obtain ⟨-, h16, -⟩ := Params.wf_geometry hp
    exact Nat.lt_of_lt_of_le (Nat.zero_lt_succ 15) h16
  lockOwner := by
    intro h
    simp [State.powerOn, State.hstateAt, List.getElem?_replicate]
  waitingLock := fun _ => by simp [State.powerOn, State.busy]
  faultRecord := nofun
  noRecord := fun _ => ⟨rfl, rfl⟩
  idleLine := fun _ => ⟨rfl, rfl⟩
  runEntry := nofun
  runWait := nofun
  waitRun := nofun
  idleOff := fun _ => ⟨rfl, rfl, rfl⟩
  cfgDiv := by simp [State.powerOn]
  waitCfg := nofun
  bufInside := nofun
  cursorInside := nofun
  cursorRest := nofun
  blockEntries := nofun

/-! ## Consequences of the invariant -/

section
variable {s : State}

theorem State.Inv.pmem_pos (hs : s.Inv) : 0 < s.pmem.length := by
  obtain ⟨-, h16, -⟩ := Params.wf_geometry hs.sized.1
  rw [hs.sized.2]
  omega

/-- While the lock is free no host's SHOW is active (R34). -/
theorem State.Inv.not_showActive (hs : s.Inv) (hl : s.lock = .free) (h : Nat) :
    s.hstateAt h ≠ some .showActive := by
  intro ha
  have := (hs.lockOwner h).mpr ha
  rw [hl] at this
  cases this

/-- A pending event means a session that waits and plays (R28, R103). -/
theorem State.Inv.waiting_of_thrPending (hs : s.Inv) (ht : s.thrPending = true) :
    s.pbRun = true ∧ s.ctl = .waiting := by
  cases hr : s.pbRun with
  | true => exact ⟨rfl, (hs.runWait hr).1⟩
  | false =>
    have := (hs.idleLine hr).2
    rw [ht] at this
    cases this

/-! ## The invariant kept by each operation -/

theorem State.Inv.setIssuer (hs : s.Inv) (who : Issuer) : ({ s with issuer := who } : State).Inv := { hs with }

theorem State.Inv.setDraws (hs : s.Inv) (n : Nat) : ({ s with draws := n } : State).Inv := { hs with }

/-- Taking a choice off the agenda keeps the invariant. -/
theorem State.Inv.setAgenda (hs : s.Inv) {agenda : List Choice} (h : ∀ c ∈ agenda, c.own = true) :
    ({ s with agenda := agenda } : State).Inv :=
  { hs with agendaOwn := h }

theorem State.Inv.refuse (hs : s.Inv) : s.refuse.Inv := { hs with }

/-- A host's byte of system memory written keeps the invariant (R42). -/
theorem State.Inv.sysWrite (hs : s.Inv) (a : Nat) (b : Byte) : ({ s with sys := s.sys.write a b } : State).Inv :=
  { hs with sysWf := Memory.write_wf hs.sysWf a b }

theorem faultCodeOf_in_table (k : FaultKind) : faultCodeOf k ≠ 0#4 ∧ (faultCodeOf k).toNat ≤ 5 := by
  cases k <;> decide

/-- R206: a fault writes its record, and playback and refill are off. -/
theorem State.Inv.raiseFault (hs : s.Inv) (k : FaultKind) (info : Word) : (s.raiseFault k info).Inv :=
  { hs with
    waitingLock := nofun
    faultRecord := fun _ => ⟨(faultCodeOf_in_table k).1, (faultCodeOf_in_table k).2, rfl, rfl⟩
    noRecord := nofun
    idleLine := fun _ => ⟨rfl, rfl⟩
    runEntry := nofun
    runWait := nofun
    waitRun := nofun
    idleOff := fun hi => ⟨rfl, rfl, (hs.idleOff hi).2.2⟩ }

theorem State.Inv.doConfigure (hs : s.Inv) (div : BitVec 8) : (s.doConfigure div).Inv := by
  rcases s.doConfigure_cases div with ⟨info, e⟩ | ⟨hdiv, e⟩ <;> rw [e]
  · exact hs.raiseFault _ _
  · exact { hs with
      cfgDiv := ⟨fun _ => hdiv, fun _ => rfl⟩
      waitCfg := fun _ => rfl }

/-- R104: an idle host's request, which is no active SHOW before or after. -/
theorem State.Inv.request (hs : s.Inv) {h : Nat} (hi : s.hstateAt h = some .idle) (base len : Word) :
    (s.setHstate h (.showReq base len)).Inv :=
  { hs with
    hosts := by simpa using hs.hosts
    lockOwner := by
      intro k
      rw [State.setHstate_lock, hs.lockOwner k, State.hstateAt_setHstate]
      split
      case isTrue hk => simp [← hk, hi]
      case isFalse => rfl }

/-- R162: what is emitted while an entry plays does not matter to the invariant. -/
theorem State.Inv.emit (hs : s.Inv) (hr : s.pbRun = true) (l : Level) (d : Dur) : (s.emit l d).Inv :=
  { hs with idleLine := fun h => by simp [hr] at h }

/-- R167: the end of playback leaves a waiting session done. -/
theorem State.Inv.endPlayback (hs : s.Inv) (hr : s.pbRun = true) : s.endPlayback.Inv := by
  obtain ⟨hw, hrfl, -⟩ := hs.runWait hr
  exact { hs with
    faultRecord := fun hf => by simp [(hs.faultRecord hf).2.2.1] at hr
    idleLine := fun _ => ⟨rfl, rfl⟩
    runEntry := nofun
    runWait := nofun
    waitRun := fun _ _ => ⟨hrfl, rfl⟩
    idleOff := fun hi => by simp [hw] at hi }

/-- R165: latching the next entry, which while playback goes on is no END0. -/
theorem State.Inv.latchNext (hs : s.Inv) (hcur : s.pbRun = true → entryDur0 s.latchNext.cur ≠ 0#15) :
    s.latchNext.Inv :=
  { hs with
    rpInside := Nat.mod_lt _ (Nat.zero_lt_of_lt hs.rpInside)
    runEntry := hcur
    blockEntries := fun hw => ⟨(hs.blockEntries hw).2 _, (hs.blockEntries hw).2⟩ }

theorem State.Inv.setThrPending (hs : s.Inv) (hr : s.pbRun = true) : ({ s with thrPending := true } : State).Inv :=
  { hs with idleLine := fun h => by simp [hr] at h }

/-- The end of a PB_STEP on a PAIR (R162, R211). -/
theorem State.Inv.latchNext_afterLatch (hs : s.Inv) (hr : s.pbRun = true) : s.latchNext.afterLatch.Inv := by
  rcases s.latchNext.afterLatch_results with ⟨-, e⟩ | ⟨h0, hcases⟩
  · rw [e]
    exact (hs.endPlayback hr).latchNext nofun
  · have hl : s.latchNext.Inv := hs.latchNext fun _ => h0
    rcases hcases with e | e | ⟨k, info, e⟩ <;> rw [e]
    · exact hl
    · exact hl.setThrPending hr
    · exact hl.raiseFault k info

/-- The owner of LOCK once a free lock is given to a host (R103). -/
theorem State.Inv.lockOwner_take (hs : s.Inv) (hl : s.lock = .free) {h : Nat} {x : HostState}
    (hx : s.hstateAt h = some x) (k : Nat) :
    Lock.held h = .held k ↔ (s.setHstate h .showActive).hstateAt k = some .showActive := by
  rw [State.hstateAt_setHstate]
  split
  case isTrue hk => simp [← hk, hx]
  case isFalse hk => simp [hk, hs.not_showActive hl k]

/-- R103: a SHOW that is not configured for, or whose buffer is not in system memory, faults with its lock taken. -/
theorem State.Inv.takeLock_raiseFault (hs : s.Inv) (hl : s.lock = .free) {h : Nat} {x : HostState}
    (hx : s.hstateAt h = some x) (k : FaultKind) (info : Word) :
    (({ s with lock := .held h }.setHstate h .showActive).raiseFault k info).Inv :=
  { hs.raiseFault k info with
    hosts := by simpa using hs.hosts
    lockOwner := hs.lockOwner_take hl hx
    waitingLock := nofun }

/-- R103: the state the start of a frame leaves. -/
theorem State.Inv.startFrame (hs : s.Inv) (hlive : s.live = true) (hi : s.ctl = .idle) (hl : s.lock = .free) {h : Nat}
    {x : HostState} (hx : s.hstateAt h = some x) {base len : Word} (hcfg : s.cfgValid = true)
    (hbuf : base.toNat + len.toNat ≤ s.par.memSize) :
    (({ s with lock := .held h }.setHstate h .showActive).startFrame base len).Inv := by
  obtain ⟨hf, href⟩ := s.live_iff.mp hlive
  obtain ⟨hp, hm⟩ := hs.sized
  have hrun := State.startFrame_run (s := { s with lock := .held h }.setHstate h .showActive) hs.sized
    (hs.idleOff hi).1 href base len
  rw [hrun]
  exact { hs with
    sized := ⟨hp, by simpa using hm⟩
    hosts := by simpa using hs.hosts
    txoffHalf := .inl rfl
    rpInside := Nat.zero_lt_of_lt hs.rpInside
    lockOwner := hs.lockOwner_take hl hx
    waitingLock := fun _ => ⟨fun _ => rfl, fun _ => rfl⟩
    faultRecord := fun h => by simp [hf] at h
    idleLine := nofun
    runEntry := fun _ => entryDur0_latchEntry hp
    runWait := fun _ => ⟨rfl, rfl, rfl⟩
    waitRun := fun _ _ => ⟨rfl, rfl⟩
    idleOff := nofun
    waitCfg := fun _ => hcfg
    bufInside := fun _ => hbuf
    cursorInside := fun _ => by simp
    cursorRest := fun _ _ => by simp
    blockEntries := fun _ => ⟨isBlockEntry_latchEntry _, PMem.isBlockEntry_latchBlock hp hm⟩ }

/-! ## The invariant kept by each choice's step -/

/-- A host's transaction (R102, R104, R107). -/
theorem State.Inv.take_issue_host (hs : s.Inv) {t : State} {h : Nat} {words : List Word} {ok : Bool}
    (ht : s.take (.issue (.host h) words ok) = .next t) : t.Inv := by
  have hp : ({ s with issuer := .host h, installOk := ok } : State).Inv := { hs with }
  rcases State.take_issue_host_cases ht with rfl | rfl | ⟨-, -, div, rfl⟩ | ⟨hi, base, len, -, rfl⟩ | ⟨-, rfl⟩
  · exact hp
  · exact hp.refuse
  · exact hp.doConfigure div
  · have hidle : s.hstateAt h = some .idle := by
      simp only [State.canIssue, Bool.and_eq_true, decide_eq_true_eq] at hi
      exact hi.2
    exact hp.request hidle base len
  · exact { hp with }

/-- A SHOW's acceptance (R103). -/
theorem State.Inv.accept (hs : s.Inv) (h : Nat) : (s.accept h).Inv := by
  rcases s.accept_cases h with e | ⟨hlive, hi, hl, base, len, hx, e⟩
  · rw [e]
    exact hs
  · rcases s.acceptShow_cases h base len with ⟨-, e'⟩ | ⟨-, -, e'⟩ | ⟨hcfg, hbuf, e'⟩ <;> rw [e, e']
    · exact hs.takeLock_raiseFault hl hx _ _
    · exact hs.takeLock_raiseFault hl hx _ _
    · exact hs.startFrame hlive hi hl hx hcfg hbuf

/-- The owner of LOCK once its owner gives it back (R105): none. -/
theorem State.Inv.lockOwner_free (hs : s.Inv) {h : Nat} (hl : s.lock = .held h) (k : Nat) :
    Lock.free = .held k ↔ (s.setHstate h .idle).hstateAt k = some .showActive := by
  rw [State.hstateAt_setHstate]
  split
  case isTrue => simp
  case isFalse hk => simp [← hs.lockOwner k, hl, hk]

/-- A SHOW's completion (R105): a session that is done no longer plays, so nothing is left running (R238). -/
theorem State.Inv.complete (hs : s.Inv) : s.complete.Inv := by
  rcases s.complete_cases with e | ⟨hlive, hw, hd, ⟨h, hl, e⟩ | ⟨hl, -⟩⟩
  · rw [e]
    exact hs
  · obtain ⟨hf, -⟩ := s.live_iff.mp hlive
    have hr : s.pbRun = false := by simpa [hd] using (hs.waitRun hw hf).2
    rw [e]
    exact { hs with
      hosts := by simpa using hs.hosts
      lockOwner := hs.lockOwner_free hl
      waitingLock := fun _ => ⟨nofun, nofun⟩
      faultRecord := fun h => by simp [hf] at h
      idleLine := fun _ => ⟨(hs.idleLine hr).1, rfl⟩
      runWait := fun h => by simp [hr] at h
      waitRun := nofun
      idleOff := fun _ => ⟨hr, rfl, rfl⟩
      waitCfg := nofun
      bufInside := nofun
      cursorInside := nofun
      cursorRest := nofun
      blockEntries := nofun }
  · have hb := (hs.waitingLock (s.live_iff.mp hlive).1).mp hw
    simp [State.busy, hl] at hb

/-- R22, R146: the toggled TXOFF is 0 or H. -/
theorem State.toggledTxoff_half (s : State) : s.toggledTxoff = 0 ∨ s.toggledTxoff = s.par.half := by
  unfold State.toggledTxoff
  split
  · exact .inr rfl
  · exact .inl rfl

/-- What a refill may write without harm to the invariant: entries of the block into PMEM, the toggled TXOFF, and a
cursor that still covers the buffer's rest (R142). -/
theorem State.Inv.refilled (hs : s.Inv) (hw : s.ctl = .waiting) (hr : s.pbRun = true) {m : PMem} {pos len : Word}
    (hm : m.length = s.pmem.length) (hpos : pos.toNat + len.toNat ≤ s.bufLen.toNat)
    (hrest : len ≠ 0#32 → pos.toNat + len.toNat = s.bufLen.toNat ∧ pos.toNat % s.par.cap = 0)
    (hblk : ∀ i, isBlockEntry s.par (m.read i)) :
    ({ s with pmem := m, pos := pos, len := len, txoff := s.toggledTxoff, thrPending := false } : State).Inv :=
  { hs with
    sized := ⟨hs.sized.1, hm.trans hs.sized.2⟩
    txoffHalf := s.toggledTxoff_half
    idleLine := fun h => by simp [hr] at h
    cursorInside := fun _ => hpos
    cursorRest := fun _ => hrest
    blockEntries := fun _ => ⟨(hs.blockEntries hw).1, hblk⟩ }

/-- R143, R151: a cursor with more than CAP bytes left moves on by CAP, and covers the buffer's rest as before. -/
theorem cursor_advance {pos len : Word} {cap total : Nat} (hlt : cap < len.toNat) (htotal : total < 2 ^ 32)
    (hsum : pos.toNat + len.toNat = total) (hmod : pos.toNat % cap = 0) :
    (pos + BitVec.ofNat 32 cap).toNat + (len - BitVec.ofNat 32 cap).toNat = total ∧
    (pos + BitVec.ofNat 32 cap).toNat % cap = 0 := by
  have hlen := len.isLt
  have hc : (BitVec.ofNat 32 cap).toNat = cap := by
    rw [BitVec.toNat_ofNat, Nat.mod_eq_of_lt (by omega)]
  have hp : (pos + BitVec.ofNat 32 cap).toNat = pos.toNat + cap := by
    rw [BitVec.toNat_add, hc, Nat.mod_eq_of_lt (by omega)]
  have hl : (len - BitVec.ofNat 32 cap).toNat = len.toNat - cap := by
    rw [BitVec.toNat_sub_of_le (by rw [BitVec.le_def, hc]; omega), hc]
  rw [hp, hl, Nat.add_mod_right]
  exact ⟨by omega, hmod⟩

/-- The refill that serves an enabled event (R142): branches A, B and C. -/
theorem State.Inv.refillWith (hs : s.Inv) (hr : s.canRefill = true) (bs : List Byte) : (s.refillWith bs).Inv := by
  have ht : s.thrPending = true := by
    simp only [State.canRefill, Bool.and_eq_true] at hr
    exact hr.1.2
  obtain ⟨hrun, hw⟩ := hs.waiting_of_thrPending ht
  have hblk := (hs.blockEntries hw).2
  have henc := PMem.isBlockEntry_encodeBytes hs.pmem_pos hblk s.txoff bs
  unfold State.refillWith
  split
  case isTrue hcap =>
    have hne : s.len ≠ 0#32 := fun h0 => by simp [h0] at hcap
    obtain ⟨hsum, hmod⟩ := hs.cursorRest hw hne
    obtain ⟨hsum', hmod'⟩ := cursor_advance hcap s.bufLen.isLt hsum hmod
    exact hs.refilled hw hrun (by simp) hsum'.le (fun _ => ⟨hsum', hmod'⟩) henc
  case isFalse =>
    split
    case isTrue =>
      exact hs.refilled hw hrun (by simp) (hs.cursorInside hw) (hs.cursorRest hw)
        (PMem.forall_read_write hs.pmem_pos hblk _ (isBlockEntry_wordTerm _))
    case isFalse =>
      refine hs.refilled hw hrun (by simp) ?_ (absurd rfl)
        (PMem.forall_read_write (by simpa using hs.pmem_pos) henc _ (isBlockEntry_wordTerm _))
      exact Nat.le_trans (Nat.add_le_add_left (Nat.zero_le _) _) (hs.cursorInside hw)

/-- The playback step (R162 to R164): the latched entry is no END0. -/
theorem State.Inv.take_play (hs : s.Inv) {t : State} (ht : s.take .play = .next t) : t.Inv := by
  have hrun : s.canPlay = true → s.pbRun = true := fun h => (Bool.and_eq_true _ _ ▸ h).2
  rcases s.take_play_cases with ⟨-, e⟩ | ⟨hp, h0, -⟩ | ⟨hp, -, -, e⟩ | ⟨hp, -, -, e⟩
  · obtain rfl : s = t := by simpa [e] using ht
    exact hs
  · exact absurd h0 (hs.runEntry (hrun hp))
  · obtain rfl := Host.Outcome.next.inj (e.symm.trans ht)
    exact (hs.emit (hrun hp) _ _).endPlayback (hrun hp)
  · obtain rfl := Host.Outcome.next.inj (e.symm.trans ht)
    exact ((hs.emit (hrun hp) _ _).emit (hrun hp) _ _).latchNext_afterLatch (hrun hp)

/-- Each choice of the spec's own keeps the invariant. -/
theorem State.Inv.take (hs : s.Inv) {t : State} {c : Choice} (hc : c.own = true) (ht : s.take c = .next t) :
    t.Inv := by
  cases c with
  | issue who words ok =>
    cases who with
    | host h => exact hs.take_issue_host ht
    | ctl | rfl | thr => cases hc
  | memWrite h a b =>
    rcases State.take_memWrite_cases ht with rfl | ⟨-, -, -, rfl⟩
    · exact hs
    · exact hs.sysWrite a b
  | accept h =>
    obtain rfl := Host.Outcome.next.inj ht
    exact hs.accept h
  | complete =>
    obtain rfl := Host.Outcome.next.inj ht
    exact hs.complete
  | refill =>
    rcases State.take_refill_cases ht with ⟨-, rfl⟩ | ⟨hr, bs, -, rfl⟩
    · exact hs.setIssuer .thr
    · exact (hs.setIssuer .thr).refillWith hr bs
  | play => exact hs.take_play ht
  | reset =>
    obtain rfl := Host.Outcome.next.inj ht
    exact State.powerOn_inv hs.sized.1 hs.sysWf hs.agendaOwn s.draws

end

/-- Where a step comes from: the next choice of the agenda, a free choice of the spec's own, or a hold that draws a free
value (R13, log entry 1). -/
theorem step_next_cases {s t : State} (h : step s = .next t) :
    (∃ c rest, s.agenda = c :: rest ∧ State.take { s with agenda := rest } c = .next t) ∨
    (s.agenda = [] ∧
      ((∃ c : Choice, c.own = true ∧ State.take { s with draws := s.draws + 1 } c = .next t) ∨
        t = { s with draws := s.draws + 1 })) := by
  by_cases hag : s.agenda = []
  · rw [step_of_agenda_nil hag] at h
    refine .inr ⟨hag, ?_⟩
    by_cases hown : (Config.freeChoice s.draws).own = true
    · exact .inl ⟨_, hown, (State.takeFree_of_own hown).symm.trans h⟩
    · rw [State.takeFree_of_not_own hown] at h
      exact .inr (Host.Outcome.next.inj h).symm
  · obtain ⟨c, rest, hag⟩ := List.exists_cons_of_ne_nil hag
    exact .inl ⟨c, rest, hag, (step_of_agenda_cons hag).symm.trans h⟩

/-! ## The obligations -/

/-- Settles O44: each choice's step keeps the invariant, whether it was on the agenda or free. -/
theorem everyStepKeepsTheInvariant : Obligations.EveryStepKeepsTheInvariant := by
  intro s t hs ht
  rcases step_next_cases ht with ⟨c, rest, hag, hc⟩ | ⟨-, ⟨c, hown, hc⟩ | rfl⟩
  · have hall : c.own = true ∧ ∀ d ∈ rest, d.own = true := by
      simpa [hag] using hs.agendaOwn
    exact (hs.setAgenda hall.2).take hall.1 hc
  · exact (hs.setDraws _).take hown hc
  · exact hs.setDraws _

/-- Settles O43: the default parameters are legal, and so is an empty system memory. -/
theorem invariantAtReset : Obligations.InvariantAtReset :=
  ⟨State.powerOn_inv (by decide) rfl (by simp) 0, fun _ _ draws hp hsys => State.powerOn_inv hp hsys (by simp) draws⟩

end Sys2Proof.Machine
end

section
/-! SUPPORT. What a transaction from any issuer can do; what no step changes (R43), what only playback appends to (R40),
and what of the cursor only acceptance and refill write (R23). -/

namespace Sys2Proof.Machine

/-! ## What a transaction can do -/

/-- What a transaction offered in state `s` can leave, whoever issues it (R90, R102 to R114, R142). -/
inductive State.TxnEffect (s : State) : State → Prop
  | hold : s.TxnEffect s
  | refuse (hi : s.canIssue = true) : s.TxnEffect s.refuse
  | configure (hi : s.canIssue = true) (hby : s.byHost = true) (hcfg : s.cfgValid = false) (div : BitVec 8) :
      s.TxnEffect (s.doConfigure div)
  | request (hi : s.canIssue = true) (hby : s.byHost = true) (base len : Word)
      (hbase : base.toNat < 2 ^ s.par.addrW) : s.TxnEffect (s.setHstate s.hostId (.showReq base len))
  | status (hi : s.canIssue = true) (hby : s.byHost = true) :
      s.TxnEffect { s with reply := some (s.hostId, s.statusWord) }
  | writeBlock (hi : s.canIssue = true) (hby : s.byCtl = true) (wait : Bool) (entries : List Word)
      (hpos : 0 < entries.length) (hlen : entries.length ≤ s.par.nMem) : s.TxnEffect (s.writeBlock wait entries)
  | waitDone (hi : s.canIssue = true) (hby : s.byCtl = true) : s.TxnEffect s.startWait
  | hook (hi : s.canIssue = true) (hby : s.byCtl = true) : s.TxnEffect s.hook
  | unhook (hi : s.canIssue = true) (hby : s.byCtl = true) : s.TxnEffect s.unhook
  | memWrite (hi : s.canIssue = true) (hby : s.byRfl = true) (offset : BitVec 16) (entry : Word) :
      s.TxnEffect { s with pmem := s.pmem.write offset.toNat entry }
  | refill (hby : s.byThr = true) (hr : s.canRefill = true) (bs : List Byte)
      (hbs : s.memReads s.refillAddr s.refillCount = .ok bs) : s.TxnEffect (s.refillWith bs)

/-- The gate lets through what is legal (R14, R90). -/
theorem State.TxnEffect.of_transact {s : State} {legal : Bool} {act : State → State}
    (h : s.canIssue = true → legal = true → s.TxnEffect (act s)) : s.TxnEffect (s.transact legal act) := by
  rcases s.transact_cases legal act with ⟨-, e⟩ | ⟨hi, -, e⟩ | ⟨hi, hl, e⟩ <;> rw [e]
  · exact .hold
  · exact .refuse hi
  · exact h hi hl

theorem State.TxnEffect.of_rejectWords (s : State) : s.TxnEffect s.rejectWords :=
  .of_transact nofun

/-- Every transaction `exec` runs has one of these effects. -/
theorem exec_txnEffect {i : Instr} (hi : i.lang = .txn) {s t : State} (ht : exec i s = .next t) : s.TxnEffect t := by
  cases i with
  | end0 | end1 | pair | bit0 | bit1 | latch | term => cases hi
  | configure div =>
    obtain rfl := Host.Outcome.next.inj ht
    exact .of_transact fun hc hl => by
      simp only [Bool.and_eq_true, Bool.not_eq_true'] at hl
      exact .configure hc hl.1 hl.2 div
  | showFrame base len =>
    obtain rfl := Host.Outcome.next.inj ht
    exact .of_transact fun hc hl => by
      simp only [Bool.and_eq_true, decide_eq_true_eq] at hl
      exact .request hc hl.1 base len hl.2
  | status =>
    obtain rfl := Host.Outcome.next.inj ht
    exact .of_transact .status
  | writeFixedBlock wait entries =>
    obtain rfl := Host.Outcome.next.inj ht
    exact .of_transact fun hc hl => by
      simp only [Bool.and_eq_true, decide_eq_true_eq] at hl
      exact .writeBlock hc hl.1.1 wait entries hl.1.2 hl.2
  | waitDone timeout =>
    obtain rfl := Host.Outcome.next.inj ht
    exact .of_transact .waitDone
  | irqHook =>
    obtain rfl := Host.Outcome.next.inj ht
    exact .of_transact .hook
  | irqUnhook =>
    obtain rfl := Host.Outcome.next.inj ht
    exact .of_transact .unhook
  | memWrite offset entry =>
    obtain rfl := Host.Outcome.next.inj ht
    exact .of_transact fun hc hl => .memWrite hc hl offset entry
  | refill =>
    simp only [exec, execRefill] at ht
    split at ht
    case isFalse =>
      obtain rfl := Host.Outcome.next.inj ht
      exact .of_rejectWords s
    case isTrue hby =>
      split at ht
      case isFalse =>
        obtain rfl := Host.Outcome.next.inj ht
        exact .hold
      case isTrue hr =>
        split at ht
        case h_1 => cases ht
        case h_2 bs hbs =>
          obtain rfl := Host.Outcome.next.inj ht
          exact .refill hby hr bs hbs
  | reserved0x0 | reserved0x4 | reserved0x5 | reserved0x6 | reserved0x7 | reserved0x8 | reserved0xF =>
    obtain rfl := Host.Outcome.next.inj ht
    exact .of_rejectWords s

/-- What the issue of any words, by any issuer, can do (R92, R101). -/
theorem State.take_issue_txnEffect {s t : State} {who : Issuer} {words : List Word} {ok : Bool}
    (ht : s.take (.issue who words ok) = .next t) : State.TxnEffect { s with issuer := who, installOk := ok } t := by
  simp only [State.take, State.issue] at ht
  split at ht
  case h_1 i hdec => exact exec_txnEffect (decodeTxn_lang hdec) ht
  case h_2 | h_3 =>
    obtain rfl := Host.Outcome.next.inj ht
    exact .of_rejectWords _

/-! ## Steps that emit nothing -/

/-- From `s` to `t` no parameter changes, nor the number of hosts, nor that of PMEM's entries (R43), and nothing is
emitted (R40). -/
structure State.Quiet (s t : State) : Prop where
  par : t.par = s.par
  hosts : t.hstate.length = s.hstate.length
  entries : t.pmem.length = s.pmem.length
  trace : t.trace = s.trace

theorem State.Quiet.refl (s : State) : s.Quiet s := ⟨rfl, rfl, rfl, rfl⟩

theorem State.Quiet.trans {s t u : State} (h : s.Quiet t) (h' : t.Quiet u) : s.Quiet u :=
  ⟨h'.par.trans h.par, h'.hosts.trans h.hosts, h'.entries.trans h.entries, h'.trace.trans h.trace⟩

theorem State.setHstate_quiet (s : State) (h : Nat) (x : HostState) : s.Quiet (s.setHstate h x) :=
  ⟨rfl, by simp, rfl, rfl⟩

theorem State.doConfigure_quiet (s : State) (div : BitVec 8) : s.Quiet (s.doConfigure div) := by
  rcases s.doConfigure_cases div with ⟨info, e⟩ | ⟨-, e⟩ <;> rw [e] <;> exact ⟨rfl, rfl, rfl, rfl⟩

theorem State.startPlayback_quiet (s : State) : s.Quiet s.startPlayback := by
  unfold State.startPlayback
  split <;> exact ⟨rfl, rfl, rfl, rfl⟩

theorem State.writeBlock_quiet (s : State) (wait : Bool) (entries : List Word) : s.Quiet (s.writeBlock wait entries) := by
  have hw : s.Quiet { s with pmem := s.pmem.writeMany 0 entries } := ⟨rfl, rfl, by simp, rfl⟩
  have hp := hw.trans (State.startPlayback_quiet _)
  unfold State.writeBlock
  split
  · exact ⟨rfl, rfl, rfl, rfl⟩
  · split
    · exact hp.trans ⟨rfl, rfl, rfl, rfl⟩
    · exact hp

theorem State.startFrame_quiet (s : State) (base len : Word) : s.Quiet (s.startFrame base len) := by
  have hw : s.Quiet
      (({ s with bufBase := base, bufLen := len, pos := 0#32, len := len, txoff := 0 } : State).hook.writeBlock
        false (latchBlock s.par)) := by
    refine .trans ?_ (State.writeBlock_quiet _ _ _)
    exact ⟨rfl, rfl, rfl, rfl⟩
  simp only [State.startFrame]
  split
  · exact hw
  · exact hw.trans ⟨rfl, rfl, rfl, rfl⟩

theorem State.accept_quiet (s : State) (h : Nat) : s.Quiet (s.accept h) := by
  rcases s.accept_cases h with e | ⟨-, -, -, base, len, -, e⟩ <;> rw [e]
  · exact .refl s
  · have hp : s.Quiet ({ s with lock := .held h }.setHstate h .showActive) := ⟨rfl, by simp, rfl, rfl⟩
    rcases s.acceptShow_cases h base len with ⟨-, e'⟩ | ⟨-, -, e'⟩ | ⟨-, -, e'⟩ <;> rw [e']
    · exact hp.trans ⟨rfl, rfl, rfl, rfl⟩
    · exact hp.trans ⟨rfl, rfl, rfl, rfl⟩
    · exact hp.trans (State.startFrame_quiet _ _ _)

theorem State.complete_quiet (s : State) : s.Quiet s.complete := by
  rcases s.complete_cases with e | ⟨-, -, -, ⟨h, -, e⟩ | ⟨-, e⟩⟩ <;> rw [e]
  · exact .refl s
  · exact ⟨rfl, by simp, rfl, rfl⟩
  · exact ⟨rfl, rfl, rfl, rfl⟩

theorem State.refillWith_quiet (s : State) (bs : List Byte) : s.Quiet (s.refillWith bs) := by
  unfold State.refillWith
  split
  · exact ⟨rfl, rfl, by simp, rfl⟩
  · split <;> exact ⟨rfl, rfl, by simp, rfl⟩

theorem State.afterLatch_quiet (s : State) : s.Quiet s.afterLatch := by
  rcases s.afterLatch_results with ⟨-, e⟩ | ⟨-, e | e | ⟨k, info, e⟩⟩ <;> rw [e] <;> exact ⟨rfl, rfl, rfl, rfl⟩

/-- A transaction emits nothing, whoever issues it. -/
theorem State.TxnEffect.quiet {s t : State} (h : s.TxnEffect t) : s.Quiet t := by
  cases h with
  | hold => exact .refl s
  | configure => exact s.doConfigure_quiet _
  | request => exact s.setHstate_quiet _ _
  | writeBlock => exact s.writeBlock_quiet _ _
  | memWrite => exact ⟨rfl, rfl, by simp, rfl⟩
  | refill => exact s.refillWith_quiet _
  | refuse | status | waitDone | hook | unhook => exact ⟨rfl, rfl, rfl, rfl⟩

/-- No choice but play emits, and none but reset makes PMEM or the hosts anew. -/
theorem State.take_quiet {s t : State} {c : Choice} (hplay : c ≠ .play) (hreset : c ≠ .reset)
    (ht : s.take c = .next t) : s.Quiet t := by
  cases c with
  | issue who words ok =>
    refine .trans ?_ (State.take_issue_txnEffect ht).quiet
    exact ⟨rfl, rfl, rfl, rfl⟩
  | memWrite h a b =>
    rcases State.take_memWrite_cases ht with rfl | ⟨-, -, -, rfl⟩ <;> exact ⟨rfl, rfl, rfl, rfl⟩
  | accept h =>
    obtain rfl := Host.Outcome.next.inj ht
    exact s.accept_quiet h
  | complete =>
    obtain rfl := Host.Outcome.next.inj ht
    exact s.complete_quiet
  | refill =>
    rcases State.take_refill_cases ht with ⟨-, rfl⟩ | ⟨-, bs, -, rfl⟩
    · exact ⟨rfl, rfl, rfl, rfl⟩
    · refine .trans ?_ (State.refillWith_quiet _ bs)
      exact ⟨rfl, rfl, rfl, rfl⟩
  | play => exact absurd rfl hplay
  | reset => exact absurd rfl hreset

/-! ## The playback step -/

@[simp] theorem State.afterLatch_elapsed (s : State) : s.afterLatch.elapsed = s.elapsed := by
  rcases s.afterLatch_results with ⟨-, e⟩ | ⟨-, e | e | ⟨k, info, e⟩⟩ <;> rw [e] <;> rfl

/-- R169, R170: a playback step appends at most two segments to TRACE and adds their units to ELAPSED. -/
theorem State.take_play_emits {s t : State} (ht : s.take .play = .next t) :
    ∃ segs : List Segment, segs.length ≤ 2 ∧ State.Quiet { s with trace := s.trace ++ segs } t ∧
      t.elapsed = s.elapsed + unitsOf segs := by
  rcases s.take_play_cases with ⟨-, e⟩ | ⟨-, -, e⟩ | ⟨-, -, -, e⟩ | ⟨-, -, -, e⟩ <;>
    obtain rfl := Host.Outcome.next.inj (e.symm.trans ht)
  · exact ⟨[], Nat.zero_le _, ⟨rfl, rfl, rfl, by simp⟩, rfl⟩
  · exact ⟨[], Nat.zero_le _, ⟨rfl, rfl, rfl, by simp⟩, rfl⟩
  · exact ⟨[⟨entryLvl0 s.cur, (entryDur0 s.cur).toNat⟩], by simp, ⟨rfl, rfl, rfl, rfl⟩, by simp [unitsOf]⟩
  · refine ⟨[⟨entryLvl0 s.cur, (entryDur0 s.cur).toNat⟩, ⟨entryLvl1 s.cur, (entryDur1 s.cur).toNat⟩], by simp, ?_, ?_⟩
    · refine .trans ?_ (State.afterLatch_quiet _)
      exact ⟨rfl, rfl, rfl, by simp⟩
    · simp [unitsOf, Nat.add_assoc]

/-! ## Parameters and sizes -/

/-- A choice's step keeps the parameters, and the sizes where they are what the parameters say: a reset makes PMEM and the
hosts anew (R43, R233). -/
theorem State.take_keeps_sizes {s t : State} {c : Choice} (ht : s.take c = .next t) :
    t.par = s.par ∧ (s.hstate.length = s.par.kHosts → t.hstate.length = s.par.kHosts) ∧
    (s.pmem.length = s.par.nMem → t.pmem.length = s.par.nMem) := by
  by_cases hreset : c = .reset
  · subst hreset
    obtain rfl := Host.Outcome.next.inj ht
    exact ⟨rfl, fun _ => List.length_replicate, fun _ => length_freshPmem _ _⟩
  by_cases hplay : c = .play
  · subst hplay
    obtain ⟨segs, -, hq, -⟩ := State.take_play_emits ht
    exact ⟨hq.par, hq.hosts.trans, hq.entries.trans⟩
  · have hq := State.take_quiet hplay hreset ht
    exact ⟨hq.par, hq.hosts.trans, hq.entries.trans⟩

/-! ## The cursor -/

/-- From `s` to `t` the cursor keeps its value (R22). -/
def State.SameCursor (s t : State) : Prop := t.pos = s.pos ∧ t.len = s.len ∧ t.txoff = s.txoff

theorem State.afterLatch_sameCursor (s : State) : s.SameCursor s.afterLatch := by
  rcases s.afterLatch_results with ⟨-, e⟩ | ⟨-, e | e | ⟨k, info, e⟩⟩ <;> rw [e] <;> exact ⟨rfl, rfl, rfl⟩

theorem State.doConfigure_sameCursor (s : State) (div : BitVec 8) : s.SameCursor (s.doConfigure div) := by
  rcases s.doConfigure_cases div with ⟨info, e⟩ | ⟨-, e⟩ <;> rw [e] <;> exact ⟨rfl, rfl, rfl⟩

/-- R23: no choice of the spec's own but acceptance, refill and reset writes the cursor. -/
theorem State.take_sameCursor {s t : State} {c : Choice} (hc : c.own = true) (hacc : ∀ h, c ≠ .accept h)
    (href : c ≠ .refill) (hreset : c ≠ .reset) (ht : s.take c = .next t) : s.SameCursor t := by
  cases c with
  | issue who words ok =>
    cases who with
    | host h =>
      rcases State.take_issue_host_cases ht with rfl | rfl | ⟨-, -, div, rfl⟩ | ⟨-, base, len, -, rfl⟩ | ⟨-, rfl⟩
      case inr.inr.inl => exact State.doConfigure_sameCursor { s with issuer := .host h, installOk := ok } div
      all_goals exact ⟨rfl, rfl, rfl⟩
    | ctl | rfl | thr => cases hc
  | memWrite h a b =>
    rcases State.take_memWrite_cases ht with rfl | ⟨-, -, -, rfl⟩ <;> exact ⟨rfl, rfl, rfl⟩
  | accept h => exact absurd rfl (hacc h)
  | complete =>
    obtain rfl := Host.Outcome.next.inj ht
    rcases s.complete_cases with e | ⟨-, -, -, ⟨h, -, e⟩ | ⟨-, e⟩⟩ <;> rw [e] <;> exact ⟨rfl, rfl, rfl⟩
  | refill => exact absurd rfl href
  | play =>
    rcases s.take_play_cases with ⟨-, e⟩ | ⟨-, -, e⟩ | ⟨-, -, -, e⟩ | ⟨-, -, -, e⟩ <;>
      obtain rfl := Host.Outcome.next.inj (e.symm.trans ht)
    case inr.inr.inr => exact State.afterLatch_sameCursor (State.latchNext _)
    all_goals exact ⟨rfl, rfl, rfl⟩
  | reset => exact absurd rfl hreset

/-! ## The obligations -/

/-- Settles O39: whichever choice the step takes, it keeps them. -/
theorem parametersNeverChange : Obligations.ParametersNeverChange := by
  intro s t ht
  rcases step_next_cases ht with ⟨c, rest, -, hc⟩ | ⟨-, ⟨c, -, hc⟩ | rfl⟩
  · exact (State.take_keeps_sizes hc :)
  · exact (State.take_keeps_sizes hc :)
  · exact ⟨rfl, id, id⟩

/-- Settles O40: every other choice is quiet, and playback emits what its latched entry says. -/
theorem onlyPlaybackEmits : Obligations.OnlyPlaybackEmits := by
  intro s t c rest hag ht hreset
  rw [step_of_agenda_cons hag] at ht
  refine ⟨fun hplay => (State.take_quiet hplay hreset ht).trace, ?_⟩
  rintro rfl
  obtain ⟨segs, hlen, hq, he⟩ := State.take_play_emits ht
  exact ⟨segs, hlen, hq.trace, he⟩

/-- Settles O37: by the choice the step takes. -/
theorem cursorWriters : Obligations.CursorWriters := by
  intro s t c rest hag hc ht hacc href hreset
  rw [step_of_agenda_cons hag] at ht
  exact (State.take_sameCursor hc hacc href hreset ht :)

end Sys2Proof.Machine
end

section
/-! SUPPORT. The words a host reads, CONF and STATUS, field by field (R32, R38), and the values of reset (R44). -/

namespace Sys2Proof.Machine

/-! ## Fields of a word, read off its number -/

/-- A bit of a word is the Boolean whose number stands there. -/
theorem getLsbD_eq_of_div_mod {w : Word} {i : Nat} {b : Bool} (h : w.toNat / 2 ^ i % 2 = b.toNat) :
    w.getLsbD i = b := by
  rw [getLsbD_eq_div_mod, h]
  cases b <;> rfl

/-- A field of a word is the vector whose number stands there. -/
theorem extractLsb'_eq_of_div_mod {w : Word} {start n : Nat} {v : BitVec n}
    (h : w.toNat / 2 ^ start % 2 ^ n = v.toNat) : w.extractLsb' start n = v := by
  apply BitVec.eq_of_toNat_eq
  rw [BitVec.extractLsb'_toNat, Nat.shiftRight_eq_div_pow, h]

/-! ## CONF and STATUS -/

/-- CONF as a number: DIV and CFG_VALID fit the word (R32). -/
theorem State.confWord_toNat (s : State) : s.confWord.toNat = s.div.toNat + s.cfgValid.toNat * 2 ^ 8 := by
  have hd := s.div.isLt
  have hv := s.cfgValid.toNat_le
  rw [State.confWord, BitVec.toNat_ofNat, Nat.mod_eq_of_lt (by omega)]

/-- STATUS as a number: its fields fit the word (R38). -/
theorem State.statusWord_toNat (s : State) :
    s.statusWord.toNat =
      s.busy.toNat + s.cfgValid.toNat * 2 ^ 1 + s.faulted.toNat * 2 ^ 2 + s.faultCode.toNat * 2 ^ 4 := by
  have hb := s.busy.toNat_le
  have hv := s.cfgValid.toNat_le
  have hf := s.faulted.toNat_le
  have hc := s.faultCode.isLt
  rw [State.statusWord, BitVec.toNat_ofNat, Nat.mod_eq_of_lt (by omega)]

/-- The fields of the STATUS word (R38). -/
theorem State.statusWord_fields (s : State) :
    s.statusWord.getLsbD 0 = s.busy ∧ s.statusWord.getLsbD 1 = s.cfgValid ∧ s.statusWord.getLsbD 2 = s.faulted ∧
    s.statusWord.getLsbD 3 = false ∧ s.statusWord.extractLsb' 4 4 = s.faultCode ∧
    s.statusWord.extractLsb' 8 24 = 0#24 := by
  have hw := s.statusWord_toNat
  have hb := s.busy.toNat_le
  have hv := s.cfgValid.toNat_le
  have hf := s.faulted.toNat_le
  have hc := s.faultCode.isLt
  refine ⟨getLsbD_eq_of_div_mod ?_, getLsbD_eq_of_div_mod ?_, getLsbD_eq_of_div_mod ?_, getLsbD_eq_of_div_mod ?_,
    extractLsb'_eq_of_div_mod ?_, extractLsb'_eq_of_div_mod ?_⟩ <;>
    simp only [hw, Bool.toNat_false, BitVec.toNat_ofNat] <;> omega

/-- BUSY is that LOCK has an owner (R34). -/
theorem State.busy_iff (s : State) : s.busy = true ↔ ∃ owner, s.lock = .held owner := by
  unfold State.busy
  cases s.lock <;> simp

/-! ## The obligations -/

/-- Settles O15: the gate lets the host's STATUS through, and its word has R38's fields. -/
theorem statusStep : Obligations.StatusStep := by
  intro s h hlive hissuer hidle
  have hcan : s.canIssue = true := by simp [State.canIssue, hlive, hissuer, hidle]
  have hby : s.byHost = true := by simp [State.byHost, hissuer]
  have hid : s.hostId = h := by simp [State.hostId, hissuer]
  obtain ⟨hbusy, hfields⟩ := s.statusWord_fields
  refine ⟨s.statusWord, ?_, by rw [hbusy, s.busy_iff], hfields⟩
  simp only [exec, execStatus, hby, State.transact_legal hcan, hid]

/-- Settles O31: field by field; PMEM is drawn with N_MEM entries. -/
theorem resetValues : Obligations.ResetValues := by
  intro par sys agenda draws
  simp [State.powerOn, length_freshPmem]

/-- Settles O51: DIV and CFG_VALID stand at their places in CONF's number. -/
theorem confFields : Obligations.ConfFields := by
  intro s
  have hw := s.confWord_toNat
  have hd := s.div.isLt
  have hv := s.cfgValid.toNat_le
  refine ⟨extractLsb'_eq_of_div_mod ?_, getLsbD_eq_of_div_mod ?_, extractLsb'_eq_of_div_mod ?_⟩ <;>
    simp only [hw, BitVec.toNat_ofNat] <;> omega

end Sys2Proof.Machine
end

section
/-! SUPPORT. System memory and who writes it: a host's bytes (R42, R72), what a host's step leaves of the block (R90, R237),
who takes and frees LOCK (R34, R77), and where a buffer's pixels lie (R65). -/

namespace Sys2Proof.Machine

/-! ## A host's memory write -/

/-- A host that may step writes any byte that exists (R42, R100). -/
theorem State.take_memWrite_of_idle {s : State} {h a : Nat} (hlive : s.live = true) (hidle : s.hstateAt h = some .idle)
    (ha : a < s.par.memSize) (b : Byte) : s.take (.memWrite h a b) = .next { s with sys := s.sys.write a b } := by
  simp only [State.take, State.hostWrite, hlive, hidle, ha, and_self, if_true]

/-! ## What leaves LOCK and system memory alone -/

/-- From `s` to `t` neither LOCK (R34) nor system memory (R42) changes. -/
structure State.SameLockAndSys (s t : State) : Prop where
  lock : t.lock = s.lock := by rfl
  sys : t.sys = s.sys := by rfl

theorem State.SameLockAndSys.trans {s t u : State} (h : s.SameLockAndSys t) (h' : t.SameLockAndSys u) :
    s.SameLockAndSys u :=
  ⟨h'.lock.trans h.lock, h'.sys.trans h.sys⟩

theorem State.doConfigure_sameLockAndSys (s : State) (div : BitVec 8) : s.SameLockAndSys (s.doConfigure div) := by
  rcases s.doConfigure_cases div with ⟨info, e⟩ | ⟨-, e⟩ <;> rw [e] <;> exact {}

theorem State.startPlayback_sameLockAndSys (s : State) : s.SameLockAndSys s.startPlayback := by
  unfold State.startPlayback
  split <;> exact {}

theorem State.writeBlock_sameLockAndSys (s : State) (wait : Bool) (entries : List Word) :
    s.SameLockAndSys (s.writeBlock wait entries) := by
  have hp : s.SameLockAndSys ({ s with pmem := s.pmem.writeMany 0 entries } : State).startPlayback :=
    .trans {} (State.startPlayback_sameLockAndSys _)
  unfold State.writeBlock
  split
  · exact {}
  · split
    · exact hp.trans {}
    · exact hp

theorem State.startFrame_sameLockAndSys (s : State) (base len : Word) : s.SameLockAndSys (s.startFrame base len) := by
  have hw : s.SameLockAndSys
      (({ s with bufBase := base, bufLen := len, pos := 0#32, len := len, txoff := 0 } : State).hook.writeBlock
        false (latchBlock s.par)) :=
    .trans {} (State.writeBlock_sameLockAndSys _ _ _)
  simp only [State.startFrame]
  split
  · exact hw
  · exact hw.trans {}

theorem State.refillWith_sameLockAndSys (s : State) (bs : List Byte) : s.SameLockAndSys (s.refillWith bs) := by
  unfold State.refillWith
  split
  · exact {}
  · split <;> exact {}

theorem State.afterLatch_sameLockAndSys (s : State) : s.SameLockAndSys s.afterLatch := by
  rcases s.afterLatch_results with ⟨-, e⟩ | ⟨-, e | e | ⟨k, info, e⟩⟩ <;> rw [e] <;> exact {}

theorem State.TxnEffect.sameLockAndSys {s t : State} (h : s.TxnEffect t) : s.SameLockAndSys t := by
  cases h with
  | configure => exact s.doConfigure_sameLockAndSys _
  | writeBlock => exact s.writeBlock_sameLockAndSys _ _
  | refill => exact s.refillWith_sameLockAndSys _
  | hold | refuse | request | status | waitDone | hook | unhook | memWrite => exact {}

theorem State.take_play_sameLockAndSys {s t : State} (ht : s.take .play = .next t) : s.SameLockAndSys t := by
  rcases s.take_play_cases with ⟨-, e⟩ | ⟨-, -, e⟩ | ⟨-, -, -, e⟩ | ⟨-, -, -, e⟩ <;>
    obtain rfl := Host.Outcome.next.inj (e.symm.trans ht)
  case inr.inr.inr => exact .trans {} (State.afterLatch_sameLockAndSys _)
  all_goals exact {}

theorem State.take_refill_sameLockAndSys {s t : State} (ht : s.take .refill = .next t) : s.SameLockAndSys t := by
  rcases State.take_refill_cases ht with ⟨-, rfl⟩ | ⟨-, bs, -, rfl⟩
  · exact {}
  · exact .trans {} (State.refillWith_sameLockAndSys _ bs)

/-- Whoever issues it, a transaction takes, frees and writes neither (R237). -/
theorem State.take_issue_sameLockAndSys {s t : State} {who : Issuer} {words : List Word} {ok : Bool}
    (ht : s.take (.issue who words ok) = .next t) : s.SameLockAndSys t :=
  .trans {} (State.take_issue_txnEffect ht).sameLockAndSys

/-- R34, R103: an acceptance that is no hold finds the lock free and the host's request waiting, and whatever then comes
of the frame gives the lock to that host; system memory stays. -/
theorem State.accept_lock_cases (s : State) (h : Nat) :
    s.accept h = s ∨
    (s.lock = .free ∧ (∃ base len, s.hstateAt h = some (.showReq base len)) ∧
      (s.accept h).lock = .held h ∧ (s.accept h).sys = s.sys) := by
  rcases s.accept_cases h with e | ⟨-, -, hl, base, len, hx, e⟩
  · exact .inl e
  · refine .inr ⟨hl, ⟨base, len, hx⟩, ?_⟩
    rcases s.acceptShow_cases h base len with ⟨-, e'⟩ | ⟨-, -, e'⟩ | ⟨-, -, e'⟩ <;> rw [e, e']
    · exact ⟨rfl, rfl⟩
    · exact ⟨rfl, rfl⟩
    · obtain ⟨hlock, hsys⟩ := State.startFrame_sameLockAndSys
        (({ s with lock := .held h } : State).setHstate h .showActive) base len
      exact ⟨hlock, hsys⟩

/-- R34, R105: a completion that is no hold finds DONE set and frees the lock; system memory stays. -/
theorem State.complete_lock_cases (s : State) :
    s.complete = s ∨ (s.done = true ∧ s.complete.lock = .free ∧ s.complete.sys = s.sys) := by
  rcases s.complete_cases with e | ⟨-, -, hd, ⟨h, -, e⟩ | ⟨-, e⟩⟩
  · exact .inl e
  · exact .inr ⟨hd, by rw [e]; exact ⟨rfl, rfl⟩⟩
  · exact .inr ⟨hd, by rw [e]; exact ⟨rfl, rfl⟩⟩

/-- What a choice can do to LOCK: nothing, or take it by an acceptance, free it by a completion, or reset it
(R34, R44). -/
theorem State.take_lock_cases {s t : State} {c : Choice} (ht : s.take c = .next t) :
    t.lock = s.lock ∨
    (∃ h, c = .accept h ∧ s.lock = .free ∧ t.lock = .held h ∧ ∃ base len, s.hstateAt h = some (.showReq base len)) ∨
    (c = .complete ∧ s.done = true ∧ t.lock = .free) ∨
    (c = .reset ∧ t.lock = .free) := by
  cases c with
  | issue who words ok => exact .inl (State.take_issue_sameLockAndSys ht).lock
  | memWrite h a b => rcases State.take_memWrite_cases ht with rfl | ⟨-, -, -, rfl⟩ <;> exact .inl rfl
  | accept h =>
    obtain rfl := Host.Outcome.next.inj ht
    rcases s.accept_lock_cases h with e | ⟨hl, hx, hlock, -⟩
    · exact .inl (by rw [e])
    · exact .inr (.inl ⟨h, rfl, hl, hlock, hx⟩)
  | complete =>
    obtain rfl := Host.Outcome.next.inj ht
    rcases s.complete_lock_cases with e | ⟨hd, hlock, -⟩
    · exact .inl (by rw [e])
    · exact .inr (.inr (.inl ⟨rfl, hd, hlock⟩))
  | refill => exact .inl (State.take_refill_sameLockAndSys ht).lock
  | play => exact .inl (State.take_play_sameLockAndSys ht).lock
  | reset =>
    obtain rfl := Host.Outcome.next.inj ht
    exact .inr (.inr (.inr ⟨rfl, rfl⟩))

/-- R60, R230: no choice but a host's memory write changes system memory, a reset neither. -/
theorem State.take_sys {s t : State} {c : Choice} (hc : ∀ h a b, c ≠ .memWrite h a b) (ht : s.take c = .next t) :
    t.sys = s.sys := by
  cases c with
  | issue who words ok => exact (State.take_issue_sameLockAndSys ht).sys
  | memWrite h a b => exact absurd rfl (hc h a b)
  | accept h =>
    obtain rfl := Host.Outcome.next.inj ht
    rcases s.accept_lock_cases h with e | ⟨-, -, -, hsys⟩
    · rw [e]
    · exact hsys
  | complete =>
    obtain rfl := Host.Outcome.next.inj ht
    rcases s.complete_lock_cases with e | ⟨-, -, hsys⟩
    · rw [e]
    · exact hsys
  | refill => exact (State.take_refill_sameLockAndSys ht).sys
  | play => exact (State.take_play_sameLockAndSys ht).sys
  | reset =>
    obtain rfl := Host.Outcome.next.inj ht
    rfl

/-! ## What a host's step leaves alone -/

/-- From `s` to `t` the line's level and what R206 turns off keep their values. -/
structure State.SameLine (s t : State) : Prop where
  pbRun : t.pbRun = s.pbRun := by rfl
  rflEn : t.rflEn = s.rflEn := by rfl
  thrPending : t.thrPending = s.thrPending := by rfl
  dout : t.dout = s.dout := by rfl

/-- Playback and refill are off and the line is idle, as R206 leaves them. -/
structure State.LineOff (s : State) : Prop where
  pbRun : s.pbRun = false := by rfl
  rflEn : s.rflEn = false := by rfl
  thrPending : s.thrPending = false := by rfl
  dout : s.dout = s.par.idleLevel := by rfl

/-- What a step of host `h` from `s` to `t` leaves of the block (R90, R237). The line stays too, but where a CONFIGURE of
an unconfigured machine faults (R206). -/
structure State.HostFrame (h : Nat) (s t : State) : Prop where
  pmem : t.pmem = s.pmem := by rfl
  rp : t.rp = s.rp := by rfl
  cur : t.cur = s.cur := by rfl
  pos : t.pos = s.pos := by rfl
  len : t.len = s.len := by rfl
  txoff : t.txoff = s.txoff := by rfl
  lock : t.lock = s.lock := by rfl
  ctl : t.ctl = s.ctl := by rfl
  bufBase : t.bufBase = s.bufBase := by rfl
  bufLen : t.bufLen = s.bufLen := by rfl
  trace : t.trace = s.trace := by rfl
  elapsed : t.elapsed = s.elapsed := by rfl
  done : t.done = s.done := by rfl
  par : t.par = s.par := by rfl
  otherHosts : ∀ k, k ≠ h → t.hstateAt k = s.hstateAt k := by exact fun _ _ => rfl
  line : s.SameLine t ∨ (s.cfgValid = false ∧ t.LineOff) := by exact .inl {}

theorem State.take_issue_hostFrame {s t : State} {h : Nat} {words : List Word} {ok : Bool}
    (ht : s.take (.issue (.host h) words ok) = .next t) : State.HostFrame h s t := by
  rcases State.take_issue_host_cases ht with rfl | rfl | ⟨-, hcfg, div, rfl⟩ | ⟨-, base, len, -, rfl⟩ | ⟨-, rfl⟩
  · exact {}
  · exact {}
  · rcases State.doConfigure_cases { s with issuer := .host h, installOk := ok } div with ⟨info, e⟩ | ⟨-, e⟩ <;> rw [e]
    · exact { line := .inr ⟨hcfg, {}⟩ }
    · exact {}
  · exact { otherHosts := fun k hk => by rw [State.hstateAt_setHstate, if_neg hk.symm]; rfl }
  · exact {}

theorem State.take_memWrite_hostFrame {s t : State} {h a : Nat} {b : Byte}
    (ht : s.take (.memWrite h a b) = .next t) : State.HostFrame h s t := by
  rcases State.take_memWrite_cases ht with rfl | ⟨-, -, -, rfl⟩ <;> exact {}

/-- R238: a machine that is not configured has no session, so nothing is running and the line is idle. -/
theorem State.Inv.lineOff {s : State} (hs : s.Inv) (hcfg : s.cfgValid = false) : s.LineOff := by
  have hidle : s.ctl = .idle := by
    cases hc : s.ctl with
    | idle => rfl
    | waiting => exact absurd (hs.waitCfg hc) (by simp [hcfg])
  obtain ⟨hrun, hrfl, -⟩ := hs.idleOff hidle
  obtain ⟨hdout, hthr⟩ := hs.idleLine hrun
  exact ⟨hrun, hrfl, hthr, hdout⟩

/-- From a state of the invariant a host's step leaves the line as it is: a CONFIGURE that faults finds off what it turns
off (R206). -/
theorem State.HostFrame.sameLine {h : Nat} {s t : State} (hf : State.HostFrame h s t) (hs : s.Inv) : s.SameLine t := by
  rcases hf.line with hline | ⟨hcfg, ht⟩
  · exact hline
  · have hoff := hs.lineOff hcfg
    exact ⟨ht.pbRun.trans hoff.pbRun.symm, ht.rflEn.trans hoff.rflEn.symm, ht.thrPending.trans hoff.thrPending.symm,
      by rw [ht.dout, hoff.dout, hf.par]⟩

/-! ## Pixels in a buffer -/

/-- The buffer of pixels of one pixelWidth is pixelCount times as long (R65). -/
theorem length_pixelBuffer {width : Nat} {pixels : List Pixel} (hw : ∀ px ∈ pixels, px.wire.length = width) :
    (pixelBuffer pixels).length = pixels.length * width := by
  rw [pixelBuffer, List.length_flatMap, List.sum_eq_card_nsmul _ width (by simpa using hw), List.length_map, smul_eq_mul]

/-- Byte `k` of pixel `i` lies at `i × pixelWidth + k` (R65). -/
theorem getElem?_pixelBuffer {width : Nat} {pixels : List Pixel} (hw : ∀ px ∈ pixels, px.wire.length = width)
    {i : Nat} {px : Pixel} (hi : pixels[i]? = some px) {k : Nat} (hk : k < width) :
    (pixelBuffer pixels)[i * width + k]? = px.wire[k]? := by
  induction pixels generalizing i with
  | nil => simp at hi
  | cons q qs ih =>
    obtain ⟨hq, hqs⟩ := List.forall_mem_cons.mp hw
    rw [pixelBuffer, List.flatMap_cons]
    cases i with
    | zero =>
      obtain rfl : q = px := by simpa using hi
      rw [Nat.zero_mul, Nat.zero_add, List.getElem?_append_left (by omega)]
    | succ i =>
      rw [List.getElem?_append_right (by rw [hq, Nat.succ_mul]; omega), hq,
        show (i + 1) * width + k - width = i * width + k by rw [Nat.succ_mul]; omega]
      exact ih hqs (by simpa using hi)

/-- What the buffer holds at `j`, system memory holds at `base + j` (R63). -/
theorem State.read_of_bufferBytes {s : State} {base len : Word} {j : Nat} {b : Byte}
    (h : (s.bufferBytes base len)[j]? = some b) : s.sys.read (base.toNat + j) = b := by
  simp only [State.bufferBytes, List.getElem?_map, Option.map_eq_some_iff] at h
  obtain ⟨k, hk, hb⟩ := h
  obtain ⟨_, hjk⟩ := List.getElem?_eq_some_iff.mp hk
  obtain rfl : j = k := by simpa using hjk
  exact hb

/-- A pixel's segments are those of its green, red, blue and white bytes in that order (R62, R65). -/
theorem dataSegments_wire (p : Params) (px : Pixel) :
    dataSegments p px.wire =
      dataSegments p [px.green] ++ dataSegments p [px.red] ++ dataSegments p [px.blue] ++
        px.white.toList.flatMap fun w => dataSegments p [w] := by
  simp [dataSegments, Pixel.wire]

theorem dataSegments_pixelBuffer (p : Params) (pixels : List Pixel) :
    dataSegments p (pixelBuffer pixels) = pixels.flatMap fun px => dataSegments p px.wire :=
  List.flatMap_assoc

/-- A pixel without white has three bytes, one with white four (R65). -/
theorem Pixel.length_wire (px : Pixel) : px.wire.length = if px.white.isSome then 4 else 3 := by
  cases h : px.white <;> simp [Pixel.wire, h]

/-! ## The obligations -/

/-- Settles O17: the step is the memory's canonical write. -/
theorem hostWriteReadsBack : Obligations.HostWriteReadsBack := by
  intro s h a b rest hag hlive hidle ha hwf
  refine ⟨s.sys.write a b, ?_, Memory.write_wf hwf a b, Memory.read_write hwf a b⟩
  rw [step_of_agenda_cons hag]
  exact State.take_memWrite_of_idle (s := { s with agenda := rest }) hlive hidle ha b

/-- Settles O36: by what the step's choice does to LOCK. -/
theorem lockDiscipline : Obligations.LockDiscipline := by
  intro s t c rest hag _ ht
  rw [step_of_agenda_cons hag] at ht
  rcases State.take_lock_cases ht with e | ⟨k, rfl, hfree, hheld, hreq⟩ | ⟨rfl, hd, hfree⟩ | ⟨rfl, hfree⟩
  case inl => exact ⟨fun h hl => .inl (e.trans hl), fun h hl hl' => by simp [e, hl] at hl'⟩
  case inr.inl =>
    refine ⟨fun h hl => ?_, fun h _ hl => ?_⟩
    · cases hfree.symm.trans hl
    · obtain rfl : k = h := by simpa [hheld] using hl
      exact ⟨rfl, hreq⟩
  case inr.inr.inl => exact ⟨fun h _ => .inr (.inl ⟨rfl, hd, hfree⟩), fun h _ hl => by simp [hfree] at hl⟩
  case inr.inr.inr => exact ⟨fun h _ => .inr (.inr rfl), fun h _ hl => by simp [hfree] at hl⟩

/-- Settles O41: by the host's choice, and by the choices that leave system memory alone. -/
theorem hostsAndBlockKeepApart : Obligations.HostsAndBlockKeepApart := by
  intro s t c rest hag ht
  rw [step_of_agenda_cons hag] at ht
  refine ⟨fun h hc => ?_, fun hc => (State.take_sys hc ht :)⟩
  have hf : State.HostFrame h { s with agenda := rest } t := by
    rcases hc with ⟨ws, ok, rfl⟩ | ⟨a, b, rfl⟩
    · exact State.take_issue_hostFrame ht
    · exact State.take_memWrite_hostFrame ht
  refine ⟨hf.pmem, hf.rp, hf.cur, hf.pos, hf.len, hf.txoff, hf.lock, hf.ctl, hf.bufBase, hf.bufLen, hf.trace,
    hf.elapsed, hf.done, hf.otherHosts, fun hs => ?_⟩
  have hag' : ∀ d ∈ rest, d.own = true := fun d hd => hs.agendaOwn d (by simp [hag, hd])
  obtain ⟨hrun, hrfl, hthr, hdout⟩ := hf.sameLine (hs.setAgenda hag')
  exact ⟨hrun, hrfl, hthr, hdout⟩

/-- Settles O50: every pixel has pixelWidth bytes, so each byte's place in the buffer is known. -/
theorem pixelPlacement : Obligations.PixelPlacement := by
  intro s base len width pixels hwidth hbuf
  have hw : ∀ px ∈ pixels, px.wire.length = width := by
    intro px hpx
    rw [px.length_wire]
    rcases hwidth with ⟨rfl, hnone⟩ | ⟨rfl, hsome⟩
    · simp [hnone px hpx]
    · simp [hsome px hpx]
  have hread : ∀ i px, pixels[i]? = some px → ∀ k b, px.wire[k]? = some b →
      s.sys.read (base.toNat + i * width + k) = b := by
    intro i px hi k b hb
    have hk : k < width := by
      rw [← hw px (List.mem_of_getElem? hi)]
      exact (List.getElem?_eq_some_iff.mp hb).1
    rw [Nat.add_assoc]
    apply State.read_of_bufferBytes (len := len)
    rw [hbuf, getElem?_pixelBuffer hw hi hk, hb]
  refine ⟨?_, fun i px hi => ⟨?_, ?_, ?_, fun w hwhite => ?_⟩, ?_⟩
  · rw [← length_pixelBuffer hw, ← hbuf]
    simp [State.bufferBytes]
  · exact hread i px hi 0 _ rfl
  · exact hread i px hi 1 _ rfl
  · exact hread i px hi 2 _ rfl
  · exact hread i px hi 3 w (by simp [Pixel.wire, hwhite])
  · simp only [hbuf, frame, dataSegments_pixelBuffer, dataSegments_wire]

end Sys2Proof.Machine
end

section
/-! SUPPORT. Encoding and decoding are inverse to each other, field by field, entry by entry and transaction by
transaction (R80 to R92); what the gate asks of a transaction (R90), and the obligations about them. -/

namespace Sys2Proof.Machine

/-! ## Argument words (R89) -/

section
variable {n : Nat} (hn : n ≤ 32)
include hn

/-- A field at bit 0 of an argument word with nothing above it reads back. -/
theorem extractLsb'_ofNat_toNat (v : BitVec n) : (BitVec.ofNat 32 v.toNat).extractLsb' 0 n = v := by
  have hv : v.toNat < 2 ^ 32 := v.isLt.trans_le (Nat.pow_le_pow_right (by decide) hn)
  apply extractLsb'_eq_of_div_mod
  rw [BitVec.toNat_ofNat, Nat.mod_eq_of_lt hv, Nat.pow_zero, Nat.div_one, Nat.mod_eq_of_lt v.isLt]

/-- The bits above that field are 0. -/
theorem extractLsb'_above_ofNat_toNat (v : BitVec n) (k : Nat) : (BitVec.ofNat 32 v.toNat).extractLsb' n k = 0#k := by
  have hv : v.toNat < 2 ^ 32 := v.isLt.trans_le (Nat.pow_le_pow_right (by decide) hn)
  apply extractLsb'_eq_of_div_mod
  rw [BitVec.toNat_ofNat, Nat.mod_eq_of_lt hv, Nat.div_eq_of_lt v.isLt, BitVec.toNat_ofNat]

/-- A word whose bits above the field are 0 is that field's word. -/
theorem ofNat_toNat_extractLsb' {a : Word} (h : a.extractLsb' n (32 - n) = 0#(32 - n)) :
    BitVec.ofNat 32 (a.extractLsb' 0 n).toNat = a := by
  have hdiv : a.toNat / 2 ^ n = 0 := by
    have hlt : a.toNat / 2 ^ n < 2 ^ (32 - n) :=
      Nat.div_lt_of_lt_mul (by rw [← Nat.pow_add, Nat.add_sub_cancel' hn]; exact a.isLt)
    simpa [BitVec.extractLsb'_toNat, Nat.shiftRight_eq_div_pow, Nat.mod_eq_of_lt hlt] using congrArg BitVec.toNat h
  have hlow : a.toNat < 2 ^ n := (Nat.div_eq_zero_iff_lt (Nat.two_pow_pos n)).1 hdiv
  rw [BitVec.extractLsb'_toNat, Nat.shiftRight_zero, Nat.mod_eq_of_lt hlow, BitVec.ofNat_toNat, BitVec.setWidth_eq]

end

@[simp] theorem mkDivArg_div (div : BitVec 8) : (mkDivArg div).extractLsb' 0 8 = div :=
  extractLsb'_ofNat_toNat (by decide) div

@[simp] theorem mkDivArg_reserved (div : BitVec 8) : (mkDivArg div).extractLsb' 8 24 = 0#24 :=
  extractLsb'_above_ofNat_toNat (by decide) div 24

theorem mkDivArg_of_field {a : Word} (h : a.extractLsb' 8 24 = 0#24) : mkDivArg (a.extractLsb' 0 8) = a :=
  ofNat_toNat_extractLsb' (by decide) h

@[simp] theorem mkOffsetArg_offset (offset : BitVec 16) : (mkOffsetArg offset).extractLsb' 0 16 = offset :=
  extractLsb'_ofNat_toNat (by decide) offset

@[simp] theorem mkOffsetArg_reserved (offset : BitVec 16) : (mkOffsetArg offset).extractLsb' 16 16 = 0#16 :=
  extractLsb'_above_ofNat_toNat (by decide) offset 16

theorem mkOffsetArg_of_field {a : Word} (h : a.extractLsb' 16 16 = 0#16) : mkOffsetArg (a.extractLsb' 0 16) = a :=
  ofNat_toNat_extractLsb' (by decide) h

/-- WRITE_FIXED_BLOCK's argument as a number: WAIT and BLOCK_LEN fit the word. -/
theorem mkBlockArg_toNat (wait : Bool) (blockLen : BitVec 16) :
    (mkBlockArg wait blockLen).toNat = wait.toNat * 2 ^ 16 + blockLen.toNat := by
  have hw := wait.toNat_le
  have hl := blockLen.isLt
  rw [mkBlockArg, BitVec.toNat_ofNat, Nat.mod_eq_of_lt (by omega)]

/-- The fields of WRITE_FIXED_BLOCK's argument read back, and its reserved bits are 0. -/
theorem mkBlockArg_fields (wait : Bool) (blockLen : BitVec 16) :
    (mkBlockArg wait blockLen).extractLsb' 0 16 = blockLen ∧ (mkBlockArg wait blockLen).getLsbD 16 = wait ∧
    (mkBlockArg wait blockLen).extractLsb' 17 15 = 0#15 := by
  have ha := mkBlockArg_toNat wait blockLen
  have hw := wait.toNat_le
  have hl := blockLen.isLt
  refine ⟨extractLsb'_eq_of_div_mod ?_, getLsbD_eq_of_div_mod ?_, extractLsb'_eq_of_div_mod ?_⟩ <;>
    simp only [ha, BitVec.toNat_ofNat] <;> omega

/-- BLOCK_LEN reads as the number of entries where they fit its 16 bits (R89). -/
theorem mkBlockArg_blockLen {n : Nat} (hn : n < 2 ^ 16) (wait : Bool) :
    ((mkBlockArg wait (BitVec.ofNat 16 n)).extractLsb' 0 16).toNat = n := by
  rw [(mkBlockArg_fields wait _).1, BitVec.toNat_ofNat, Nat.mod_eq_of_lt hn]

/-- A word without reserved bits is WRITE_FIXED_BLOCK's argument of its two fields. -/
theorem mkBlockArg_of_fields {a : Word} (h : a.extractLsb' 17 15 = 0#15) :
    mkBlockArg (a.getLsbD 16) (a.extractLsb' 0 16) = a := by
  have ha := a.isLt
  have hhigh : a.toNat / 2 ^ 17 % 2 ^ 15 = 0 := by
    simpa [BitVec.extractLsb'_toNat, Nat.shiftRight_eq_div_pow] using congrArg BitVec.toNat h
  have hlow : (a.extractLsb' 0 16).toNat = a.toNat % 2 ^ 16 := by simp [BitVec.extractLsb'_toNat]
  apply BitVec.eq_of_toNat_eq
  rw [mkBlockArg_toNat, hlow, getLsbD_eq_div_mod]
  by_cases hbit : a.toNat / 2 ^ 16 % 2 = 1 <;>
    simp only [hbit, decide_true, decide_false, Bool.toNat_true, Bool.toNat_false] <;> omega

/-! ## Pulse entries -/

/-- A word is an entry of given fields if they stand at their places (R80, R81). -/
theorem eq_mkEntry_iff {w : Word} {lvl0 : Level} {dur0 : Dur} {lvl1 : Level} {dur1 : Dur} :
    w = mkEntry lvl0 dur0 lvl1 dur1 ↔
      (entryLvl0 w, entryDur0 w, entryLvl1 w, entryDur1 w) = (lvl0, dur0, lvl1, dur1) := by
  constructor
  · rintro rfl
    simp
  · rintro ⟨⟩
    exact (mkEntry_of_fields w).symm

/-- An entry is decoded from its own word (R82, R93). -/
theorem decodeEntry_of_encode {i : Instr} {w : Word} (hl : i.lang = .entry) (hwf : i.wf = true) (he : encode i = [w]) :
    decodeEntry w = i := by
  cases i with
  | term | bit0 | bit1 | latch =>
    obtain rfl := List.singleton_inj.1 he
    decide
  | end0 lvl0 dur1 lvl1 =>
    obtain rfl := List.singleton_inj.1 he
    have hterm : ¬(lvl0 = false ∧ lvl1 = false ∧ dur1 = 0#15) := by
      rintro ⟨rfl, rfl, rfl⟩
      cases hwf
    simp [decodeEntry, wordTerm_fields, wordBit0_fields, wordBit1_fields, wordLatch_fields, eq_mkEntry_iff, hterm]
  | end1 lvl0 dur0 lvl1 =>
    obtain rfl := List.singleton_inj.1 he
    have h0 : dur0 ≠ 0#15 := by simpa [Instr.wf] using hwf
    simp [decodeEntry, wordTerm_fields, wordBit0_fields, wordBit1_fields, wordLatch_fields, eq_mkEntry_iff, h0]
  | pair lvl0 dur0 lvl1 dur1 =>
    obtain rfl := List.singleton_inj.1 he
    simp only [Instr.wf, Bool.and_eq_true, bne_iff_ne] at hwf
    obtain ⟨⟨⟨⟨h0, h1⟩, hbit0⟩, hbit1⟩, hlatch⟩ := hwf
    have hterm : (lvl0, dur0, lvl1, dur1) ≠ (false, 0#15, false, 0#15) := by
      rintro ⟨⟩
      exact h0 rfl
    simp only [decodeEntry, wordTerm_fields, wordBit0_fields, wordBit1_fields, wordLatch_fields, eq_mkEntry_iff,
      entryLvl0_mkEntry, entryDur0_mkEntry, entryLvl1_mkEntry, entryDur1_mkEntry, if_neg hterm, if_neg hbit0,
      if_neg hbit1, if_neg hlatch, if_neg h0, if_neg h1]
  | _ => cases hl

/-- Every word is decoded to a well-formed entry that it encodes (R82, R93, log entry 15). -/
theorem decodeEntry_spec (w : Word) :
    (decodeEntry w).wf = true ∧ (decodeEntry w).lang = .entry ∧ encode (decodeEntry w) = [w] := by
  have hfields := mkEntry_of_fields w
  unfold decodeEntry
  split_ifs with hterm hbit0 hbit1 hlatch h0 h1
  · exact ⟨rfl, rfl, congrArg ([·]) hterm.symm⟩
  · exact ⟨rfl, rfl, congrArg ([·]) hbit0.symm⟩
  · exact ⟨rfl, rfl, congrArg ([·]) hbit1.symm⟩
  · exact ⟨rfl, rfl, congrArg ([·]) hlatch.symm⟩
  · rw [wordTerm_fields, eq_mkEntry_iff, h0] at hterm
    rw [h0] at hfields
    refine ⟨?_, rfl, congrArg ([·]) hfields⟩
    by_contra hwf
    simp only [Instr.wf, Bool.not_eq_true, Bool.or_eq_false_iff, bne_eq_false_iff_eq] at hwf
    obtain ⟨⟨hl0, hl1⟩, h1⟩ := hwf
    exact hterm (by rw [hl0, hl1, h1])
  · rw [h1] at hfields
    exact ⟨bne_iff_ne.2 h0, rfl, congrArg ([·]) hfields⟩
  · rw [wordBit0_fields, eq_mkEntry_iff] at hbit0
    rw [wordBit1_fields, eq_mkEntry_iff] at hbit1
    rw [wordLatch_fields, eq_mkEntry_iff] at hlatch
    refine ⟨?_, rfl, congrArg ([·]) hfields⟩
    simp only [Instr.wf, Bool.and_eq_true, bne_iff_ne]
    exact ⟨⟨⟨⟨h0, h1⟩, hbit0⟩, hbit1⟩, hlatch⟩

/-- An entry has one word (R80). -/
theorem encode_entry {i : Instr} (hl : i.lang = .entry) : ∃ w, encode i = [w] := by
  cases i with
  | end0 | end1 | pair | bit0 | bit1 | latch | term => exact ⟨_, rfl⟩
  | _ => cases hl

/-! ## The classes of R82 -/

/-- A word shows no bit under the mask of a field if and only if the field is 0 (R82). -/
theorem and_mask_eq_zero_iff {w mask : Word} {start n : Nat} (hn : start + n ≤ 32)
    (hm : ∀ k < 32, mask.getLsbD k = decide (start ≤ k ∧ k < start + n)) :
    w &&& mask = 0#32 ↔ w.extractLsb' start n = 0#n := by
  constructor
  · intro h
    ext k hk
    have hbit := congrArg (·.getLsbD (start + k)) h
    simpa [hm (start + k) (by omega), hk] using hbit
  · intro h
    ext k hk
    by_cases hin : start ≤ k ∧ k < start + n
    · obtain ⟨d, rfl⟩ := Nat.exists_eq_add_of_le hin.1
      have hd : d < n := by omega
      have hbit := congrArg (·.getLsbD d) h
      simp only [BitVec.getLsbD_extractLsb', hd, decide_true, Bool.true_and, BitVec.getLsbD_zero] at hbit
      simp [← BitVec.getLsbD_eq_getElem, hbit]
    · simp [← BitVec.getLsbD_eq_getElem, hm k hk, hin]

/-- END0's mask covers DUR0 (R82). -/
theorem and_mask_dur0_iff (w : Word) : w &&& 0x00007FFF#32 = 0#32 ↔ entryDur0 w = 0#15 :=
  and_mask_eq_zero_iff (by decide) (by decide)

/-- END1's second mask covers DUR1 (R82). -/
theorem and_mask_dur1_iff (w : Word) : w &&& 0x7FFF0000#32 = 0#32 ↔ entryDur1 w = 0#15 :=
  and_mask_eq_zero_iff (by decide) (by decide)

/-- The class of a decoded word is the one its durations give, and the halves of a PAIR are its fields (R80, R82). -/
theorem decodeEntry_class (w : Word) :
    isEnd0 (decodeEntry w) = decide (entryDur0 w = 0#15) ∧
    isEnd1 (decodeEntry w) = decide (entryDur0 w ≠ 0#15 ∧ entryDur1 w = 0#15) ∧
    pairHalves (decodeEntry w) =
      if entryDur0 w ≠ 0#15 ∧ entryDur1 w ≠ 0#15 then some (entryLvl0 w, entryDur0 w, entryLvl1 w, entryDur1 w)
      else none := by
  obtain ⟨hwf, hl, he⟩ := decodeEntry_spec w
  generalize decodeEntry w = i at *
  cases i with
  | term | bit0 | bit1 | latch =>
    obtain rfl := List.singleton_inj.1 he
    decide
  | end0 lvl0 dur1 lvl1 =>
    obtain rfl := List.singleton_inj.1 he
    show true = _ ∧ false = _ ∧ none = _
    simp
  | end1 lvl0 dur0 lvl1 =>
    obtain rfl := List.singleton_inj.1 he
    have h0 : dur0 ≠ 0#15 := bne_iff_ne.1 hwf
    show false = _ ∧ true = _ ∧ none = _
    simp [h0]
  | pair lvl0 dur0 lvl1 dur1 =>
    obtain rfl := List.singleton_inj.1 he
    simp only [Instr.wf, Bool.and_eq_true, bne_iff_ne] at hwf
    show false = _ ∧ false = _ ∧ some _ = _
    simp [hwf]
  | _ => cases hl

/-! ## Transactions -/

/-- CONFIGURE's argument word has DIV and reserved bits (R89). -/
theorem decodeArgs_configure (a : Word) (args : List Word) :
    decodeArgs 0x1#4 (a :: args) =
      if a.extractLsb' 8 24 = 0#24 then .ok (.configure (a.extractLsb' 0 8), args) else .error .argReserved := rfl

/-- WRITE_FIXED_BLOCK's argument word has BLOCK_LEN, WAIT and reserved bits, and BLOCK_LEN entries follow it (R89). -/
theorem decodeArgs_writeFixedBlock (a : Word) (args : List Word) :
    decodeArgs 0x9#4 (a :: args) =
      if a.extractLsb' 17 15 = 0#15 then
        if (a.extractLsb' 0 16).toNat ≤ args.length then
          .ok (.writeFixedBlock (a.getLsbD 16) (args.take (a.extractLsb' 0 16).toNat),
            args.drop (a.extractLsb' 0 16).toNat)
        else .error .truncated
      else .error .argReserved := rfl

/-- MEM_WRITE's first argument word has OFFSET and reserved bits; the entry follows it (R89). -/
theorem decodeArgs_memWrite (a w : Word) (args : List Word) :
    decodeArgs 0xD#4 (a :: w :: args) =
      if a.extractLsb' 16 16 = 0#16 then .ok (.memWrite (a.extractLsb' 0 16) w, args) else .error .argReserved := rfl

/-- The words of a block are read by its argument word (R92). -/
theorem decodeTxn_encode_writeFixedBlock (wait : Bool) (entries rest : List Word) :
    decodeTxn (encode (.writeFixedBlock wait entries) ++ rest) =
      decodeArgs 0x9#4 (mkBlockArg wait (BitVec.ofNat 16 entries.length) :: (entries ++ rest)) := by
  simp [encode, decodeTxn]

/-- A transaction is decoded from its own words, whatever words follow (R87, R89, R92). -/
theorem decodeTxn_encode {i : Instr} (hl : i.lang = .txn) (hwf : i.wf = true) (rest : List Word) :
    decodeTxn (encode i ++ rest) = .ok (i, rest) := by
  cases i with
  | end0 | end1 | pair | bit0 | bit1 | latch | term => cases hl
  | writeFixedBlock wait entries =>
    obtain ⟨-, hlt⟩ := Bool.and_eq_true_iff.1 hwf
    obtain ⟨-, hwait, hres⟩ := mkBlockArg_fields wait (BitVec.ofNat 16 entries.length)
    rw [decodeTxn_encode_writeFixedBlock, decodeArgs_writeFixedBlock, if_pos hres, hwait,
      mkBlockArg_blockLen (of_decide_eq_true hlt), if_pos (by simp), List.take_left, List.drop_left]
  | configure | showFrame | status | waitDone | irqHook | irqUnhook | memWrite | refill =>
    simp [encode, decodeTxn, decodeArgs]
  | reserved0x0 | reserved0x4 | reserved0x5 | reserved0x6 | reserved0x7 | reserved0x8 | reserved0xF =>
    simp [encode, decodeTxn]

/-- R88: the operation codes that are not reserved. -/
theorem op_mem_of_not_reserved : ∀ op : BitVec 4, op ≠ 0x0#4 → op ≠ 0x4#4 → op ≠ 0x5#4 → op ≠ 0x6#4 → op ≠ 0x7#4 →
    op ≠ 0x8#4 → op ≠ 0xF#4 → op ∈ [0x1#4, 0x2#4, 0x3#4, 0x9#4, 0xA#4, 0xB#4, 0xC#4, 0xD#4, 0xE#4] := by
  decide

/-- The argument decoder drops no bit: every word it reads is the one the encoder builds (R89). -/
theorem encode_of_decodeArgs {op : BitVec 4} {args rest : List Word} {i : Instr}
    (hop : op ∈ [0x1#4, 0x2#4, 0x3#4, 0x9#4, 0xA#4, 0xB#4, 0xC#4, 0xD#4, 0xE#4])
    (h : decodeArgs op args = .ok (i, rest)) : encode i ++ rest = mkHdr 0#28 op :: args := by
  simp only [List.mem_cons, List.not_mem_nil, or_false] at hop
  obtain rfl | rfl | rfl | rfl | rfl | rfl | rfl | rfl | rfl := hop
  · -- CONFIGURE
    obtain _ | ⟨a, args⟩ := args
    · cases h
    · rw [decodeArgs_configure] at h
      split_ifs at h with hres
      cases h
      rw [encode, mkDivArg_of_field hres]
      rfl
  · -- SHOW
    obtain _ | ⟨base, _ | ⟨len, args⟩⟩ := args <;> cases h
    rfl
  · -- STATUS
    cases h
    rfl
  · -- WRITE_FIXED_BLOCK
    obtain _ | ⟨a, args⟩ := args
    · cases h
    · rw [decodeArgs_writeFixedBlock] at h
      split_ifs at h with hres hlen
      cases h
      rw [encode, List.length_take, Nat.min_eq_left hlen, BitVec.ofNat_toNat, BitVec.setWidth_eq,
        mkBlockArg_of_fields hres, List.cons_append, List.cons_append, List.take_append_drop]
  · -- WAIT_DONE
    obtain _ | ⟨t, args⟩ := args <;> cases h
    rfl
  · -- IRQ_HOOK
    cases h
    rfl
  · -- IRQ_UNHOOK
    cases h
    rfl
  · -- MEM_WRITE
    obtain _ | ⟨a, _ | ⟨w, args⟩⟩ := args
    · cases h
    · cases h
    · rw [decodeArgs_memWrite] at h
      split_ifs at h with hres
      cases h
      rw [encode, mkOffsetArg_of_field hres]
      rfl
  · -- REFILL
    cases h
    rfl

/-- The transaction decoder drops no bit (R87, R92). -/
theorem encode_of_decodeTxn {ws rest : List Word} {i : Instr} (h : decodeTxn ws = .ok (i, rest)) :
    encode i ++ rest = ws := by
  obtain _ | ⟨hdr, args⟩ := ws
  · cases h
  have hfields := mkHdr_of_fields hdr
  simp only [decodeTxn] at h
  split_ifs at h with h0 h4 h5 h6 h7 h8 hF hupper
  on_goal 8 =>
    rw [← hfields, hupper]
    exact encode_of_decodeArgs (op_mem_of_not_reserved _ h0 h4 h5 h6 h7 h8 hF) h
  all_goals
    cases h
    simp_all [encode]

/-- A decoded block is no longer than its BLOCK_LEN field can say (R89). -/
theorem block_length_lt_of_decodeTxn {ws rest entries : List Word} {wait : Bool}
    (h : decodeTxn ws = .ok (.writeFixedBlock wait entries, rest)) : entries.length < 2 ^ 16 := by
  obtain rfl := encode_of_decodeTxn h
  rw [decodeTxn_encode_writeFixedBlock, decodeArgs_writeFixedBlock] at h
  split_ifs at h
  injection h with h
  injection h with hi hrest
  injection hi with hwait hentries
  rw [← hentries, List.length_take]
  exact (Nat.min_le_left _ _).trans_lt (BitVec.isLt _)

/-! ## What a transaction must meet (R90) -/

/-- What the gate asks of an instruction offered on the port: who issues it (R88, R101), the bounds on its operands, and
for CONFIGURE that it is the first (R90). A pulse entry is no transaction. -/
def State.permits (s : State) : Instr → Bool
  | .configure _ => s.byHost && !s.cfgValid
  | .showFrame base _ => s.byHost && decide (base.toNat < 2 ^ s.par.addrW)
  | .status => s.byHost
  | .writeFixedBlock _ entries => s.byCtl && decide (0 < entries.length) && decide (entries.length ≤ s.par.nMem)
  | .waitDone _ | .irqHook | .irqUnhook => s.byCtl
  | .memWrite _ _ => s.byRfl
  | .refill => s.byThr
  | _ => false

/-- A host stands on the port (R88). -/
theorem State.byHost_iff (s : State) : s.byHost = true ↔ ∃ h, s.issuer = .host h := by
  unfold State.byHost
  cases s.issuer <;> simp

/-- Words that are no transaction are refused (R90). -/
theorem State.rejectWords_of_canIssue {s : State} (hcan : s.canIssue = true) : s.rejectWords = s.refuse :=
  State.transact_illegal hcan id

/-- A transaction that is not permitted is refused (R90). -/
theorem exec_of_not_permits {s : State} {i : Instr} (hl : i.lang = .txn) (hcan : s.canIssue = true)
    (h : s.permits i = false) : exec i s = .next s.refuse := by
  have hgate : ∀ act, s.transact (s.permits i) act = s.refuse := fun act => by rw [h, State.transact_illegal hcan]
  cases i with
  | end0 | end1 | pair | bit0 | bit1 | latch | term => cases hl
  | refill =>
    have hby : s.byThr = false := h
    simp only [exec, execRefill, hby, Bool.false_eq_true, if_false, State.rejectWords_of_canIssue hcan]
  | _ => exact congrArg _ (hgate _)

/-- The words of a permitted transaction have none of the faults R90 lists. -/
theorem not_illegalWords_of_permits {s : State} {i : Instr} {hdr : Word} {args : List Word} (hthr : s.issuer ≠ .thr)
    (hfits : ∀ wait entries, i = .writeFixedBlock wait entries → entries.length < 2 ^ 16)
    (he : encode i = hdr :: args) (hp : s.permits i = true) : ¬illegalWords s s.issuer hdr args := by
  cases i with
  | configure div =>
    obtain ⟨hby, hcfg⟩ := Bool.and_eq_true_iff.1 hp
    obtain ⟨h, hh⟩ := s.byHost_iff.1 hby
    cases he
    rw [Bool.not_eq_true'] at hcfg
    simp [illegalWords, hh, hcfg]
  | showFrame base len =>
    obtain ⟨hby, hbase⟩ := Bool.and_eq_true_iff.1 hp
    obtain ⟨h, hh⟩ := s.byHost_iff.1 hby
    cases he
    simp [illegalWords, hh, of_decide_eq_true hbase]
  | status =>
    obtain ⟨h, hh⟩ := s.byHost_iff.1 hp
    cases he
    simp [illegalWords, hh]
  | writeFixedBlock wait entries =>
    have hlen := hfits wait entries rfl
    obtain ⟨hby, hmax⟩ := Bool.and_eq_true_iff.1 hp
    obtain ⟨hby, hpos⟩ := Bool.and_eq_true_iff.1 hby
    have hctl : s.issuer = .ctl := of_decide_eq_true hby
    have hne : entries ≠ [] := List.ne_nil_of_length_pos (of_decide_eq_true hpos)
    obtain ⟨-, -, hres⟩ := mkBlockArg_fields wait (BitVec.ofNat 16 entries.length)
    cases he
    simp [illegalWords, hctl, hres, mkBlockArg_blockLen hlen, hne, of_decide_eq_true hmax, -BitVec.extractLsb'_toNat]
  | waitDone | irqHook | irqUnhook =>
    have hctl : s.issuer = .ctl := of_decide_eq_true hp
    cases he
    simp [illegalWords, hctl]
  | memWrite offset entry =>
    have hrfl : s.issuer = .rfl := of_decide_eq_true hp
    cases he
    simp [illegalWords, hrfl]
  | refill => exact absurd (of_decide_eq_true hp) hthr
  | _ => cases hp

/-- R90: illegal words are refused, be they one whole transaction that is not permitted, more than one, or none. -/
theorem State.issue_of_illegalWords {s : State} {who : Issuer} {hdr : Word} {args : List Word} {ok : Bool}
    (hthr : who ≠ .thr) (hcan : ({ s with issuer := who, installOk := ok } : State).canIssue = true)
    (hill : illegalWords s who hdr args) :
    s.issue who (hdr :: args) ok = .next ({ s with issuer := who, installOk := ok } : State).refuse := by
  unfold State.issue
  split
  case h_1 i hdec =>
    refine exec_of_not_permits (decodeTxn_lang hdec) hcan (Bool.eq_false_iff.2 fun hp => ?_)
    have he : encode i = hdr :: args := by rw [← encode_of_decodeTxn hdec, List.append_nil]
    refine not_illegalWords_of_permits hthr ?_ he hp hill
    rintro wait entries rfl
    exact block_length_lt_of_decodeTxn hdec
  case h_2 | h_3 => exact congrArg _ (State.rejectWords_of_canIssue hcan)

/-! ## The obligations -/

/-- Settles O1: an entry has one word, which has its class and name; a transaction's argument fields read back. -/
theorem decodeInvertsEncode : Obligations.DecodeInvertsEncode := by
  intro i rest hwf
  cases hl : i.lang with
  | entry =>
    obtain ⟨w, he⟩ := encode_entry hl
    rw [he, List.singleton_append, decode, decodeEntry_of_encode hl hwf he]
  | txn => exact decodeTxn_encode hl hwf rest

/-- Settles O2: the masks of R82 cover the durations, and these decide the class. -/
theorem everyWordIsOneEntry : Obligations.EveryWordIsOneEntry := by
  intro w
  obtain ⟨hwf, hl, he⟩ := decodeEntry_spec w
  obtain ⟨hend0, hend1, hpair⟩ := decodeEntry_class w
  rw [ne_eq, ne_eq, and_mask_dur0_iff, and_mask_dur1_iff, hend0, hend1, hpair, decide_eq_true_iff, decide_eq_true_iff]
  exact ⟨hwf, hl, he, .rfl, .rfl, by split_ifs with h <;> simp [h]⟩

/-- Settles O3: the halves of a PAIR, named or not, are the word's fields. -/
theorem pairPlaysItsFields : Obligations.PairPlaysItsFields := by
  intro w lvl0 lvl1 dur0 dur1 h
  obtain ⟨-, -, hpair⟩ := decodeEntry_class w
  rw [hpair] at h
  split_ifs at h
  cases h
  exact ⟨rfl, rfl, rfl, rfl⟩

/-- Settles O4: no case of the decoder drops a bit. -/
theorem decodedWordsAreTheEncoding : Obligations.DecodedWordsAreTheEncoding := fun _ _ _ => encode_of_decodeTxn

/-- Settles O6: words that are one whole transaction are its encoding, so R90's faults leave it no permission; other
words are refused as they are. -/
theorem illegalTransactionIsRefused : Obligations.IllegalTransactionIsRefused := by
  intro s who hdr args ok rest hs hthr hcan hill
  rw [step_of_agenda_cons hs]
  exact State.issue_of_illegalWords hthr hcan hill

/-- Settles O29: the words by computation, the latch entry for all parameters from its fields. -/
theorem blockEntryWords : Obligations.BlockEntryWords := by
  refine ⟨by decide, by decide, by decide, rfl, rfl, rfl, rfl, fun p => ?_⟩
  simp [latchEntry, mkEntry_toNat]

/-- Settles O30: the gate permits no reserved code. -/
theorem reservedCodeIsRefused : Obligations.ReservedCodeIsRefused := by
  intro s i hres hcan
  cases i with
  | reserved0x0 | reserved0x4 | reserved0x5 | reserved0x6 | reserved0x7 | reserved0x8 | reserved0xF =>
    exact exec_of_not_permits rfl hcan rfl
  | _ => cases hres

end Sys2Proof.Machine
end

section
/-! SUPPORT. CTL's operations and acceptance, the host transactions, and RFL's write, each as the equation of its effect
(spec/40_control.md), and the obligations about them. -/

namespace Sys2Proof.Machine

/-! ## Who may issue (R100, R101) -/

/-- A live machine lets every issuer step but a host whose HSTATE is not IDLE (R100). -/
theorem State.canIssue_iff (s : State) :
    s.canIssue = true ↔ s.live = true ∧ ∀ h, s.issuer = .host h → s.hstateAt h = some .idle := by
  unfold State.canIssue
  cases s.issuer <;> simp

/-- An issuer without a step holds, whatever transaction it offers (R14, R100). -/
theorem exec_of_not_canIssue {s : State} {i : Instr} (hl : i.lang = .txn) (hthr : s.byThr = false)
    (hcan : s.canIssue = false) : exec i s = .next s := by
  have hgate : ∀ legal act, s.transact legal act = s := State.transact_hold hcan
  cases i with
  | end0 | end1 | pair | bit0 | bit1 | latch | term => cases hl
  | refill =>
    simp only [exec, execRefill, hthr, Bool.false_eq_true, if_false]
    exact congrArg _ (hgate _ _)
  | _ => exact congrArg _ (hgate _ _)

/-- So does one that offers any words (R90). -/
theorem State.issue_of_not_canIssue {s : State} {who : Issuer} {ok : Bool} (hthr : who ≠ .thr)
    (hcan : ({ s with issuer := who, installOk := ok } : State).canIssue = false) (words : List Word) :
    s.issue who words ok = .next { s with issuer := who, installOk := ok } := by
  unfold State.issue
  split
  case h_1 i hdec => exact exec_of_not_canIssue (decodeTxn_lang hdec) (decide_eq_false hthr) hcan
  case h_2 | h_3 => exact congrArg _ (State.transact_hold hcan _ _)

/-- A host whose HSTATE is not IDLE writes no memory (R100). -/
theorem State.hostWrite_of_not_idle {s : State} {h : Nat} (hidle : s.hstateAt h ≠ some .idle) (a : Nat) (b : Byte) :
    s.hostWrite h a b = .next s :=
  if_neg fun hc => hidle hc.2

/-! ## What a permitted transaction does -/

theorem State.permits_configure (s : State) (div : BitVec 8) :
    s.permits (.configure div) = (s.byHost && !s.cfgValid) := rfl

theorem State.permits_showFrame (s : State) (base len : Word) :
    s.permits (.showFrame base len) = (s.byHost && decide (base.toNat < 2 ^ s.par.addrW)) := rfl

/-- CTL may write any block of 1 to N_MEM entries (R90, R101). -/
theorem State.permits_writeFixedBlock {s : State} (hctl : s.issuer = .ctl) {entries : List Word}
    (hpos : 0 < entries.length) (hlen : entries.length ≤ s.par.nMem) (wait : Bool) :
    s.permits (.writeFixedBlock wait entries) = true := by
  have hby : s.byCtl = true := decide_eq_true hctl
  show (s.byCtl && decide (0 < entries.length) && decide (entries.length ≤ s.par.nMem)) = true
  rw [hby, decide_eq_true hpos, decide_eq_true hlen]
  rfl

section
variable {s : State} (hcan : s.canIssue = true)
include hcan

/-- The gate lets through what it permits (R90). -/
theorem State.transact_of_permits {i : Instr} (hp : s.permits i = true) (act : State → State) :
    s.transact (s.permits i) act = act s := by
  rw [hp, State.transact_legal hcan]

theorem exec_configure {div : BitVec 8} (hp : s.permits (.configure div) = true) :
    exec (.configure div) s = .next (s.doConfigure div) :=
  congrArg _ (State.transact_of_permits hcan hp _)

theorem exec_showFrame {base len : Word} (hp : s.permits (.showFrame base len) = true) :
    exec (.showFrame base len) s = .next (s.setHstate s.hostId (.showReq base len)) :=
  congrArg _ (State.transact_of_permits hcan hp _)

theorem exec_writeFixedBlock {wait : Bool} {entries : List Word}
    (hp : s.permits (.writeFixedBlock wait entries) = true) :
    exec (.writeFixedBlock wait entries) s = .next (s.writeBlock wait entries) :=
  congrArg _ (State.transact_of_permits hcan hp _)

theorem exec_waitDone {timeout : Word} (hp : s.permits (.waitDone timeout) = true) :
    exec (.waitDone timeout) s = .next s.startWait :=
  congrArg _ (State.transact_of_permits hcan hp _)

theorem exec_irqHook (hp : s.permits .irqHook = true) : exec .irqHook s = .next s.hook :=
  congrArg _ (State.transact_of_permits hcan hp _)

theorem exec_irqUnhook (hp : s.permits .irqUnhook = true) : exec .irqUnhook s = .next s.unhook :=
  congrArg _ (State.transact_of_permits hcan hp _)

theorem exec_memWrite {offset : BitVec 16} {entry : Word} (hp : s.permits (.memWrite offset entry) = true) :
    exec (.memWrite offset entry) s = .next { s with pmem := s.pmem.write offset.toNat entry } :=
  congrArg _ (State.transact_of_permits hcan hp _)

end

/-! ## Who stands on the port -/

section
variable {s : State} {h : Nat} (hissuer : s.issuer = .host h)
include hissuer

theorem State.byHost_of_host : s.byHost = true := s.byHost_iff.2 ⟨h, hissuer⟩

theorem State.hostId_of_host : s.hostId = h := by
  simp only [State.hostId, hissuer]

theorem State.canIssue_of_host (hlive : s.live = true) (hidle : s.hstateAt h = some .idle) : s.canIssue = true := by
  refine s.canIssue_iff.2 ⟨hlive, fun k hk => ?_⟩
  obtain rfl : h = k := by simpa [hissuer] using hk
  exact hidle

end

/-- An issuer that is no host needs only a live machine (R101). -/
theorem State.canIssue_of_not_host {s : State} (hlive : s.live = true) (hissuer : ∀ h, s.issuer ≠ .host h) :
    s.canIssue = true :=
  s.canIssue_iff.2 ⟨hlive, fun h hh => absurd hh (hissuer h)⟩

theorem State.canIssue_of_ctl {s : State} (hlive : s.live = true) (hissuer : s.issuer = .ctl) : s.canIssue = true :=
  State.canIssue_of_not_host hlive fun h => by simp [hissuer]

/-! ## CONFIGURE (R102) -/

section
variable {s : State} {div : BitVec 8}

theorem State.doConfigure_of_zero (hdiv : div = 0#8) : s.doConfigure div = s.raised 1#4 0#32 := if_pos hdiv

theorem State.doConfigure_of_not_installOk (hdiv : div ≠ 0#8) (hok : s.installOk = false) :
    s.doConfigure div = s.raised 1#4 1#32 :=
  (if_neg hdiv).trans (if_neg (by simp [hok]))

theorem State.doConfigure_of_installOk (hdiv : div ≠ 0#8) (hok : s.installOk = true) :
    s.doConfigure div = { s with div := div, cfgValid := true } :=
  (if_neg hdiv).trans (if_pos hok)

end

/-! ## HSTATE (R41) -/

/-- A host with an HSTATE exists. -/
theorem State.lt_of_hstateAt {s : State} {h : Nat} {x : HostState} (hx : s.hstateAt h = some x) :
    h < s.hstate.length :=
  (List.getElem?_eq_some_iff.1 hx).1

/-- HSTATE after that of a host that exists is set. -/
theorem State.getElem?_setHstate {s : State} {h : Nat} (hh : h < s.hstate.length) (x : HostState) (k : Nat) :
    (s.setHstate h x).hstate[k]? = if k = h then some x else s.hstate[k]? := by
  rw [State.setHstate_hstate, List.getElem?_set_of_lt' _ _ hh]
  simp only [eq_comm]

/-! ## The block write (R110, R160) -/

section
variable {s : State} {e : Word}

/-- START_PLAYBACK on an END0 ends playback at once (R160, R167). -/
theorem State.startPlayback_end (h : entryDur0 (s.pmem.read 0) = 0#15) :
    s.startPlayback =
      { s with
        rp := 0, cur := s.pmem.read 0, elapsed := 0, done := true, thrPending := false, pbRun := false,
        dout := s.par.idleLevel } :=
  if_pos h

/-- While nothing plays, the block is written, playback starts and, with WAIT, CTL waits (R110). -/
theorem State.writeBlock_of_not_pbRun (hr : s.pbRun = false) (wait : Bool) (entries : List Word) :
    s.writeBlock wait entries =
      if wait then ({ s with pmem := s.pmem.writeMany 0 entries } : State).startPlayback.startWait
      else ({ s with pmem := s.pmem.writeMany 0 entries } : State).startPlayback :=
  if_neg (by simp [hr])

/-- The block write while playback runs is refused (R110). -/
theorem State.writeBlock_of_pbRun (hr : s.pbRun = true) (wait : Bool) (entries : List Word) :
    s.writeBlock wait entries = s.refuse := if_pos hr

/-- R110, R160: the block's first entry, no END0, is latched and playback runs. -/
theorem State.writeBlock_run (hr : s.pbRun = false) {entries : List Word}
    (hfirst : (s.pmem.writeMany 0 entries).read 0 = e) (he : entryDur0 e ≠ 0#15) (wait : Bool) :
    s.writeBlock wait entries =
      { s with
        pmem := s.pmem.writeMany 0 entries, rp := 0, cur := e, elapsed := 0, done := false, thrPending := false,
        pbRun := true, ctl := if wait then .waiting else s.ctl } := by
  subst hfirst
  rw [State.writeBlock_of_not_pbRun hr, State.startPlayback_run he]
  cases wait <;> rfl

/-- R110, R160: the block's first entry is an END0, so playback ends at once. -/
theorem State.writeBlock_end (hr : s.pbRun = false) {entries : List Word}
    (hfirst : (s.pmem.writeMany 0 entries).read 0 = e) (he : entryDur0 e = 0#15) (wait : Bool) :
    s.writeBlock wait entries =
      { s with
        pmem := s.pmem.writeMany 0 entries, rp := 0, cur := e, elapsed := 0, done := true, thrPending := false,
        pbRun := false, dout := s.par.idleLevel, ctl := if wait then .waiting else s.ctl } := by
  subst hfirst
  rw [State.writeBlock_of_not_pbRun hr, State.startPlayback_end he]
  cases wait <;> rfl

/-- The latch block starts playback on its first entry (R103). -/
theorem State.writeBlock_latchBlock (hs : s.sized) (hr : s.pbRun = false) :
    s.writeBlock false (latchBlock s.par) =
      { s with
        pmem := s.pmem.writeMany 0 (latchBlock s.par), rp := 0, cur := latchEntry s.par, elapsed := 0, done := false,
        thrPending := false, pbRun := true } :=
  State.writeBlock_run hr (PMem.read_latchBlock hs.1 hs.2 0) (entryDur0_latchEntry hs.1) false

/-- CTL may write the latch block of legal parameters (R8, R90). -/
theorem State.permits_latchBlock (hp : s.par.wf = true) (hctl : s.issuer = .ctl) :
    s.permits (.writeFixedBlock false (latchBlock s.par)) = true := by
  obtain ⟨-, h16, hl⟩ := Params.wf_geometry hp
  have hlen : (latchBlock s.par).length = s.par.nMem := by rw [latchBlock, List.length_replicate, hl]
  exact State.permits_writeFixedBlock hctl (by omega) hlen.le false

end

/-! ## Acceptance and completion (R103, R105) -/

section
variable {s : State} {h : Nat} {base len : Word}

/-- An idle, unlocked, live machine accepts a waiting request (R103). -/
theorem State.accept_of_showReq (hlive : s.live = true) (hctl : s.ctl = .idle) (hlock : s.lock = .free)
    (hreq : s.hstateAt h = some (.showReq base len)) : s.accept h = s.acceptShow h base len := by
  simp only [State.accept, hlive, hctl, hlock, hreq, and_self, if_true]

/-- So its step is that acceptance (R13). -/
theorem step_of_accept {rest : List Choice} (hag : s.agenda = .accept h :: rest) (hlive : s.live = true)
    (hctl : s.ctl = .idle) (hlock : s.lock = .free) (hreq : s.hstateAt h = some (.showReq base len)) :
    step s = .next (State.acceptShow { s with agenda := rest } h base len) := by
  rw [step_of_agenda_cons hag]
  exact congrArg _ (State.accept_of_showReq (s := { s with agenda := rest }) hlive hctl hlock hreq)

/-- What acceptance does first: the lock is given to the host, whose SHOW is active (R103). -/
def State.lockedBy (s : State) (h : Nat) : State := { s with lock := .held h, hstate := s.hstate.set h .showActive }

theorem State.acceptShow_of_not_cfgValid (hcfg : s.cfgValid = false) :
    s.acceptShow h base len = (s.lockedBy h).raised 2#4 (BitVec.ofNat 32 h) := if_pos hcfg

theorem State.acceptShow_of_memSize_lt (hcfg : s.cfgValid = true) (hbuf : s.par.memSize < base.toNat + len.toNat) :
    s.acceptShow h base len = (s.lockedBy h).raised 5#4 base :=
  (if_neg (by simp [hcfg])).trans (if_pos hbuf)

theorem State.acceptShow_of_le_memSize (hcfg : s.cfgValid = true) (hbuf : base.toNat + len.toNat ≤ s.par.memSize) :
    s.acceptShow h base len = (s.lockedBy h).startFrame base len :=
  (if_neg (by simp [hcfg])).trans (if_neg (Nat.not_lt.2 hbuf))

/-- The session registers and the cursor are set and CTL stands on the port, before its first operation (R103). -/
def State.sessionSet (s : State) (base len : Word) : State :=
  { s with bufBase := base, bufLen := len, pos := 0#32, len := len, txoff := 0, issuer := .ctl }

/-- The start of a frame is CTL's three operations, one after the other (R103, R110 to R112). -/
theorem State.startFrame_operations (hs : s.sized) (hlive : s.live = true) (hr : s.pbRun = false)
    (base len timeout : Word) :
    ∃ s1 s2 s3 : State,
      exec .irqHook (s.sessionSet base len) = .next s1 ∧
      exec (.writeFixedBlock false (latchBlock s.par)) s1 = .next s2 ∧
      exec (.waitDone timeout) s2 = .next s3 ∧ s.startFrame base len = { s3 with issuer := s.issuer } := by
  obtain ⟨-, hrefused⟩ := s.live_iff.1 hlive
  have hhook : exec .irqHook (s.sessionSet base len) = .next (s.sessionSet base len).hook :=
    exec_irqHook (State.canIssue_of_ctl hlive rfl) rfl
  have hblock := exec_writeFixedBlock (s := (s.sessionSet base len).hook) (State.canIssue_of_ctl hlive rfl)
    (State.permits_latchBlock hs.1 rfl)
  rw [State.writeBlock_latchBlock (s := (s.sessionSet base len).hook) hs hr] at hblock
  refine ⟨_, _, _, hhook, hblock, exec_waitDone (State.canIssue_of_ctl ?_ rfl) rfl, ?_⟩
  · exact hlive
  · rw [State.startFrame_run hs hr hrefused]
    rfl

/-- A session that is done ends: its owner's SHOW returns (R105). -/
theorem State.complete_of_held (hlive : s.live = true) (hctl : s.ctl = .waiting) (hdone : s.done = true)
    (hlock : s.lock = .held h) :
    s.complete = { s.unhook with done := false, lock := .free, ctl := .idle }.setHstate h .idle := by
  simp only [State.complete, hlive, hctl, hdone, hlock, and_self, if_true]

end

/-! ## The obligations -/

/-- Settles O16: the gate lets such a host's transaction hold, and its memory write is not enabled. -/
theorem blockedHostHolds : Obligations.BlockedHostHolds := by
  intro s h rest hidle
  refine ⟨fun ws ok hag => ?_, fun a b hag => ?_⟩
  · rw [step_of_agenda_cons hag]
    refine State.issue_of_not_canIssue (s := { s with agenda := rest }) (who := .host h) nofun
      (Bool.eq_false_iff.2 fun hcan => hidle ?_) ws
    exact ((State.canIssue_iff _).1 hcan).2 h rfl
  · rw [step_of_agenda_cons hag]
    exact State.hostWrite_of_not_idle (s := { s with agenda := rest }) hidle a b

/-- Settles O20: by what each entry reads as after the block is written, and by the class of the first. -/
theorem writeFixedBlockStep : Obligations.WriteFixedBlockStep := by
  rintro s wait e es ⟨-, hm⟩ hlive hctl hlen
  have hcan := State.canIssue_of_ctl hlive hctl
  have hp := State.permits_writeFixedBlock hctl (List.length_pos_of_ne_nil (List.cons_ne_nil e es)) hlen wait
  rw [exec_writeFixedBlock hcan hp]
  refine ⟨fun hr => congrArg _ (State.writeBlock_of_pbRun hr _ _), fun hr => ?_⟩
  have hread : ∀ k w, (e :: es)[k]? = some w → (s.pmem.writeMany 0 (e :: es)).read k = w := by
    intro k w hk
    obtain ⟨hlt, rfl⟩ := List.getElem?_eq_some_iff.1 hk
    simpa using PMem.read_writeMany s.pmem 0 (e :: es) (hlen.trans_eq hm.symm) k hlt
  refine ⟨s.pmem.writeMany 0 (e :: es), by rw [PMem.length_writeMany, hm], hread, fun k hk hlt => ?_,
    fun he => congrArg _ (State.writeBlock_run hr (hread 0 e rfl) he wait),
    fun he => congrArg _ (State.writeBlock_end hr (hread 0 e rfl) he wait)⟩
  refine PMem.read_writeMany_other (by omega) 0 _ k fun j hj => ?_
  rw [hm, Nat.mod_eq_of_lt hlt, Nat.mod_eq_of_lt (by omega)]
  omega

/-- Settles O21: in the order of R103's checks; the latch block fills PMEM. -/
theorem acceptanceStep : Obligations.AcceptanceStep := by
  intro s h base len rest hinv hag hlive hctl hlock hreq
  obtain ⟨-, hrefused⟩ := s.live_iff.1 hlive
  obtain ⟨hr, -, -⟩ := hinv.idleOff hctl
  rw [step_of_accept hag hlive hctl hlock hreq]
  refine ⟨s.hstate.set h .showActive, State.getElem?_setHstate (State.lt_of_hstateAt hreq) _, fun hcfg => ?_,
    fun hcfg hbuf => ?_, fun hcfg hbuf => ?_⟩
  · exact congrArg _ (State.acceptShow_of_not_cfgValid (s := { s with agenda := rest }) hcfg)
  · exact congrArg _ (State.acceptShow_of_memSize_lt (s := { s with agenda := rest }) hcfg hbuf)
  · refine ⟨s.pmem.writeMany 0 (latchBlock s.par), by rw [PMem.length_writeMany, hinv.sized.2],
      PMem.read_latchBlock hinv.sized.1 hinv.sized.2, ?_⟩
    rw [State.acceptShow_of_le_memSize (s := { s with agenda := rest }) hcfg hbuf]
    exact congrArg _ (State.startFrame_run (s := State.lockedBy { s with agenda := rest } h) hinv.sized hr hrefused
      base len)

/-- Settles O22: CTL may issue each operation, and their effects one after another are the frame's start. -/
theorem acceptanceIssuesItsOperations : Obligations.AcceptanceIssuesItsOperations := by
  intro s h base len rest hinv hag hlive hctl hlock hreq hcfg hbuf
  obtain ⟨hr, -, -⟩ := hinv.idleOff hctl
  obtain ⟨s1, s2, s3, hhook, hwrite, hwait, hframe⟩ :=
    State.startFrame_operations (s := State.lockedBy { s with agenda := rest } h) hinv.sized hlive hr base len
      (BitVec.ofNat 32 s.par.waitTimeout)
  refine ⟨s.hstate.set h .showActive, s1, s2, s3, State.getElem?_setHstate (State.lt_of_hstateAt hreq) _, hhook,
    hwrite, hwait, ?_⟩
  rw [step_of_accept hag hlive hctl hlock hreq,
    State.acceptShow_of_le_memSize (s := { s with agenda := rest }) hcfg hbuf, hframe]
  rfl

/-- Settles O13: the gate permits only the first CONFIGURE, which checks its divider before the draw. -/
theorem configureStep : Obligations.ConfigureStep := by
  intro s h div hlive hissuer hidle
  have hcan := State.canIssue_of_host hissuer hlive hidle
  have hp : s.permits (.configure div) = !s.cfgValid := by
    rw [State.permits_configure, State.byHost_of_host hissuer, Bool.true_and]
  have hexec (hcfg : s.cfgValid = false) : exec (.configure div) s = .next (s.doConfigure div) :=
    exec_configure hcan (by rw [hp, hcfg, Bool.not_false])
  refine ⟨fun hcfg => ?_, fun hcfg hdiv => ?_, fun hcfg hdiv hok => ?_, fun hcfg hdiv hok => ?_⟩
  · exact exec_of_not_permits rfl hcan (by rw [hp, hcfg, Bool.not_true])
  · rw [hexec hcfg, State.doConfigure_of_zero hdiv]
  · rw [hexec hcfg, State.doConfigure_of_not_installOk hdiv hok]
  · rw [hexec hcfg, State.doConfigure_of_installOk hdiv hok]

/-- Settles O14: the issuing host exists, so its HSTATE is set. -/
theorem showIssueStep : Obligations.ShowIssueStep := by
  intro s h base len hlive hissuer hidle hbase
  have hp : s.permits (.showFrame base len) = true := by
    rw [State.permits_showFrame, State.byHost_of_host hissuer, Bool.true_and, decide_eq_true hbase]
  refine ⟨s.hstate.set h (.showReq base len), ?_, List.length_set,
    State.getElem?_setHstate (State.lt_of_hstateAt hidle) _⟩
  rw [exec_showFrame (State.canIssue_of_host hissuer hlive hidle) hp, State.hostId_of_host hissuer]
  rfl

/-- Settles O18: CTL may issue both. -/
theorem hookAndUnhookSteps : Obligations.HookAndUnhookSteps := by
  intro s hlive hctl
  have hcan := State.canIssue_of_ctl hlive hctl
  exact ⟨exec_irqHook hcan (decide_eq_true hctl), exec_irqUnhook hcan (decide_eq_true hctl)⟩

/-- Settles O19: CTL may issue it, with any operand. -/
theorem waitDoneStep : Obligations.WaitDoneStep := fun _ _ hlive hctl =>
  exec_waitDone (State.canIssue_of_ctl hlive hctl) (decide_eq_true hctl)

/-- Settles O23: completion is enabled and the owner exists, so its HSTATE is set. -/
theorem completionStep : Obligations.CompletionStep := by
  intro s h rest hag hlive hctl hdone hlock hh
  refine ⟨s.hstate.set h .idle, State.getElem?_setHstate hh _, ?_⟩
  rw [step_of_agenda_cons hag]
  exact congrArg _ (State.complete_of_held (s := { s with agenda := rest }) hlive hctl hdone hlock)

/-- Settles O24: RFL may issue it, and one write changes one entry. -/
theorem memWriteStep : Obligations.MemWriteStep := by
  rintro s offset w ⟨hp, hm⟩ hlive hrfl
  obtain ⟨-, h16, -⟩ := Params.wf_geometry hp
  have hread := PMem.read_write (m := s.pmem) (by omega) offset.toNat w
  have hcan : s.canIssue = true := State.canIssue_of_not_host hlive fun h => by simp [hrfl]
  refine ⟨s.pmem.write offset.toNat w, exec_memWrite hcan (decide_eq_true hrfl), by rw [PMem.length_write, hm], ?_,
    fun k hk => ?_⟩
  · rw [hread, if_pos rfl]
  · rw [hread, hm, if_neg hk]

end Sys2Proof.Machine
end

section
/-! SUPPORT. The refill engine: the entries of the bytes it encodes (R147), the three branches of its step (R142 to R146),
why it never reads outside system memory (R60), and the obligations about it. -/

namespace Sys2Proof.Machine

/-! ## The entries of a list of bytes (R62, R147) -/

@[simp] theorem length_byteEntries (p : Params) (b : Byte) : (byteEntries p b).length = 8 := by
  simp [byteEntries, bitsMsbFirst]

@[simp] theorem length_bytesEntries (p : Params) (bs : List Byte) : (bytesEntries p bs).length = 8 * bs.length := by
  induction bs with
  | nil => rfl
  | cons b bs ih =>
    rw [bytesEntries, List.flatMap_cons, List.length_append, length_byteEntries, List.length_cons, Nat.mul_succ,
      Nat.add_comm]
    exact congrArg (· + 8) ih

/-- Entry `j` of a byte is that of its bit `7 - j` (R62, R147). -/
theorem getElem?_byteEntries (p : Params) (b : Byte) {j : Nat} (hj : j < 8) :
    (byteEntries p b)[j]? = some (bitEntry p (b.getLsbD (7 - j))) := by
  simp [byteEntries, bitsMsbFirst, hj]

/-- The entries of byte `k` stand from `8k` on (R147). -/
theorem getElem?_bytesEntries (p : Params) {bs : List Byte} {k : Nat} {b : Byte} (hb : bs[k]? = some b) {j : Nat}
    (hj : j < 8) : (bytesEntries p bs)[8 * k + j]? = some (bitEntry p (b.getLsbD (7 - j))) := by
  induction bs generalizing k with
  | nil => simp at hb
  | cons c cs ih =>
    have hc := length_byteEntries p c
    rw [bytesEntries, List.flatMap_cons]
    cases k with
    | zero =>
      obtain rfl : c = b := by simpa using hb
      rw [Nat.mul_zero, Nat.zero_add, List.getElem?_append_left (by omega), getElem?_byteEntries p c hj]
    | succ k =>
      rw [List.getElem?_append_right (by omega), hc, show 8 * (k + 1) + j - 8 = 8 * k + j by omega]
      exact ih (by simpa using hb)

/-- Bytes that fit the pulse memory are encoded each at its own entries (R147). -/
theorem PMem.read_encodeBytes {m : PMem} {bs : List Byte} (hlen : 8 * bs.length ≤ m.length) (p : Params) (base : Nat)
    {k : Nat} {b : Byte} (hb : bs[k]? = some b) {j : Nat} (hj : j < 8) :
    (m.encodeBytes p base bs).read (base + 8 * k + j) = bitEntry p (b.getLsbD (7 - j)) := by
  obtain ⟨hlt, he⟩ := List.getElem?_eq_some_iff.1 (getElem?_bytesEntries p hb hj)
  rw [PMem.encodeBytes, Nat.add_assoc, PMem.read_writeMany _ _ _ (by simpa using hlen) _ hlt, he]

/-- Encoding bytes leaves every other entry alone (R147). -/
theorem PMem.read_encodeBytes_other {m : PMem} (hm : 0 < m.length) {bs : List Byte} (p : Params) (base x : Nat)
    (hx : ∀ k < 8 * bs.length, x % m.length ≠ (base + k) % m.length) :
    (m.encodeBytes p base bs).read x = m.read x :=
  PMem.read_writeMany_other hm _ _ _ (by simpa using hx)

/-! ## The bytes a refill reads (R63, R149) -/

/-- The bytes the next refill encodes, as system memory holds them. -/
def State.refillBytes (s : State) : List Byte := (List.range' s.refillAddr s.refillCount).map s.sys.read

@[simp] theorem State.length_refillBytes (s : State) : s.refillBytes.length = s.refillCount := by
  simp [State.refillBytes]

theorem State.getElem?_refillBytes (s : State) {k : Nat} (hk : k < s.refillCount) :
    s.refillBytes[k]? = some (s.sys.read (s.refillAddr + k)) := by
  simp [State.refillBytes, hk]

theorem State.refillCount_le_cap (s : State) : s.refillCount ≤ s.par.cap := by
  unfold State.refillCount
  split <;> omega

theorem State.refillCount_le_len (s : State) : s.refillCount ≤ s.len.toNat := by
  unfold State.refillCount
  split <;> omega

theorem State.refillCount_of_cap_lt {s : State} (hcap : s.par.cap < s.len.toNat) : s.refillCount = s.par.cap :=
  if_pos hcap

theorem State.refillCount_of_le_cap {s : State} (hcap : s.len.toNat ≤ s.par.cap) : s.refillCount = s.len.toNat :=
  if_neg (Nat.not_lt.2 hcap)

/-! ## The refill step (R140, R142) -/

theorem State.canRefill_iff (s : State) :
    s.canRefill = true ↔ s.live = true ∧ s.thrPending = true ∧ s.rflEn = true := by
  simp [State.canRefill, and_assoc]

section
variable {s : State} (hthr : s.issuer = .thr)
include hthr

/-- Served without an enabled event, REFILL holds (R140). -/
theorem exec_refill_of_not_canRefill (hr : s.canRefill = false) : exec .refill s = .next s :=
  (if_pos (decide_eq_true hthr)).trans (if_neg (by simp [hr]))

/-- Served with one, it encodes the bytes it reads (R142). -/
theorem exec_refill_of_memReads (hr : s.canRefill = true) {bs : List Byte}
    (hbs : s.memReads s.refillAddr s.refillCount = .ok bs) : exec .refill s = .next (s.refillWith bs) := by
  have hby : s.byThr = true := decide_eq_true hthr
  simp only [exec, execRefill, hby, hr, if_true, hbs]

/-- If they all exist, these are the bytes system memory holds (R60). -/
theorem exec_refill_of_canRefill (hr : s.canRefill = true) (hbuf : s.refillAddr + s.refillCount ≤ s.par.memSize) :
    exec .refill s = .next (s.refillWith s.refillBytes) :=
  exec_refill_of_memReads hthr hr (s.memReads_ok _ _ hbuf)

end

section
variable {s : State} (bs : List Byte)

/-- Branch A (R143). -/
theorem State.refillWith_of_cap_lt (hcap : s.par.cap < s.len.toNat) :
    s.refillWith bs =
      { s with
        pmem := s.pmem.encodeBytes s.par s.txoff bs,
        pos := s.pos + BitVec.ofNat 32 s.par.cap, len := s.len - BitVec.ofNat 32 s.par.cap,
        txoff := s.toggledTxoff, thrPending := false } :=
  if_pos hcap

/-- Branch B (R144). -/
theorem State.refillWith_of_len_zero (hlen : s.len = 0#32) :
    s.refillWith bs =
      { s with pmem := s.pmem.write s.txoff wordTerm, txoff := s.toggledTxoff, thrPending := false } :=
  (if_neg (by simp [hlen])).trans (if_pos hlen)

/-- Branch C (R145). -/
theorem State.refillWith_of_le_cap (hlen : s.len ≠ 0#32) (hcap : s.len.toNat ≤ s.par.cap) :
    s.refillWith bs =
      { s with
        pmem := (s.pmem.encodeBytes s.par s.txoff bs).write (s.txoff + 8 * s.len.toNat) wordTerm,
        len := 0#32, txoff := s.toggledTxoff, thrPending := false } :=
  (if_neg (Nat.not_lt.2 hcap)).trans (if_neg hlen)

end

/-! ## The half a refill writes (R141, R147) -/

/-- Different offsets below N_MEM from one index name different entries (R61). -/
theorem add_mod_ne_add_mod {n d e : Nat} (i : Nat) (hlt : d < e) (he : e < n) : (i + d) % n ≠ (i + e) % n := by
  have h := mod_ne_mod_add (n := n) (i + d) (e - d) (by omega) (by omega)
  rwa [Nat.add_assoc, Nat.add_sub_cancel' hlt.le] at h

section
variable {s : State} (hs : s.sized)
include hs

theorem State.sized_pmem_pos : 0 < s.pmem.length := by
  obtain ⟨-, h16, -⟩ := Params.wf_geometry hs.1
  rw [hs.2]
  omega

/-- What a refill encodes fits one half, which is less than the pulse memory (R141). -/
theorem State.refillBytes_fit : 8 * s.refillBytes.length ≤ s.par.half ∧ s.par.half < s.pmem.length := by
  obtain ⟨hhalf, hcap, -⟩ := Params.wf_half hs.1
  have hpos := State.sized_pmem_pos hs
  have hle := s.refillCount_le_cap
  rw [hs.2] at hpos ⊢
  rw [State.length_refillBytes]
  omega

/-- Where a refill's bytes stand, most significant bit first (R147). -/
theorem State.read_encode_refillBytes {k j : Nat} (hk : k < s.refillCount) (hj : j < 8) :
    (s.pmem.encodeBytes s.par s.txoff s.refillBytes).read (s.txoff + 8 * k + j) =
      bitEntry s.par ((s.sys.read (s.refillAddr + k)).getLsbD (7 - j)) := by
  obtain ⟨hfit, hlt⟩ := State.refillBytes_fit hs
  exact PMem.read_encodeBytes (hfit.trans hlt.le) _ _ (s.getElem?_refillBytes hk) hj

/-- They touch no entry but theirs. -/
theorem State.read_encode_refillBytes_other {x : Nat}
    (hx : ∀ k < 8 * s.refillCount, x % s.par.nMem ≠ (s.txoff + k) % s.par.nMem) :
    (s.pmem.encodeBytes s.par s.txoff s.refillBytes).read x = s.pmem.read x :=
  PMem.read_encodeBytes_other (State.sized_pmem_pos hs) _ _ _ (by simpa [hs.2] using hx)

end

/-! ## What answers a next state -/

/-- From a state of the invariant an enabled refill reads only bytes that exist: its cursor lies in the session's buffer,
and that in system memory (R22, R103, R142). -/
theorem State.Inv.refill_inside {s : State} (hs : s.Inv) (hr : s.canRefill = true) :
    s.refillAddr + s.refillCount ≤ s.par.memSize := by
  obtain ⟨-, hpend, -⟩ := s.canRefill_iff.1 hr
  obtain ⟨-, hw⟩ := hs.waiting_of_thrPending hpend
  have hbuf := hs.bufInside hw
  have hcur := hs.cursorInside hw
  have hle := s.refillCount_le_len
  unfold State.refillAddr
  omega

theorem State.Inv.take_refill_answers {s : State} (hs : s.Inv) : ∃ t, s.take .refill = .next t := by
  cases hr : s.canRefill with
  | false => exact ⟨_, exec_refill_of_not_canRefill (s := { s with issuer := .thr }) rfl hr⟩
  | true =>
    exact ⟨_, exec_refill_of_canRefill (s := { s with issuer := .thr }) rfl hr ((hs.setIssuer .thr).refill_inside hr)⟩

/-- A transaction stops the machine only where the refill step is served. -/
theorem exec_txn_answers {s : State} {i : Instr} (hl : i.lang = .txn) (hthr : s.byThr = false) :
    ∃ t, exec i s = .next t := by
  cases i with
  | end0 | end1 | pair | bit0 | bit1 | latch | term => cases hl
  | refill => exact ⟨_, if_neg (by simp [hthr])⟩
  | _ => exact ⟨_, rfl⟩

/-- Whatever words an issuer of the spec's offers, the step answers (R90, R101). -/
theorem State.issue_answers (s : State) {who : Issuer} (hthr : who ≠ .thr) (words : List Word) (ok : Bool) :
    ∃ t, s.issue who words ok = .next t := by
  unfold State.issue
  split
  case h_1 i hdec => exact exec_txn_answers (decodeTxn_lang hdec) (decide_eq_false hthr)
  case h_2 | h_3 => exact ⟨_, rfl⟩

/-- A host's write answers, or its byte does not exist (R60). -/
theorem State.hostWrite_answers (s : State) (h a : Nat) (b : Byte) :
    (∃ t, s.hostWrite h a b = .next t) ∨ (s.par.memSize ≤ a ∧ s.hostWrite h a b = .fault (.noSuchAddress a)) := by
  unfold State.hostWrite
  split
  · split
    case isTrue => exact .inl ⟨_, rfl⟩
    case isFalse ha => exact .inr ⟨Nat.not_lt.1 ha, rfl⟩
  · exact .inl ⟨_, rfl⟩

/-- Each choice of the spec's own answers a next state, but a host's write to a byte that does not exist. -/
theorem State.Inv.take_answers {s : State} (hs : s.Inv) {c : Choice} (hc : c.own = true) :
    (∃ t, s.take c = .next t) ∨
    ∃ h a b, c = .memWrite h a b ∧ s.par.memSize ≤ a ∧ s.take c = .fault (.noSuchAddress a) := by
  cases c with
  | issue who words ok =>
    cases who with
    | host h => exact .inl (s.issue_answers (who := .host h) nofun words ok)
    | ctl | rfl | thr => cases hc
  | memWrite h a b => exact (s.hostWrite_answers h a b).imp_right fun ⟨ha, hf⟩ => ⟨h, a, b, rfl, ha, hf⟩
  | refill => exact .inl hs.take_refill_answers
  | play => exact .inl ⟨_, exec_decodeEntry s.cur s⟩
  | accept | complete | reset => exact .inl ⟨_, rfl⟩

/-! ## The obligations -/

/-- Settles O42: the choices on the agenda are the spec's own, and each answers. -/
theorem specStepsDoNotStop : Obligations.SpecStepsDoNotStop := by
  intro s c rest hs hag
  obtain ⟨hown, hrest⟩ : c.own = true ∧ ∀ d ∈ rest, d.own = true := by simpa [hag] using hs.agendaOwn
  rw [step_of_agenda_cons hag]
  exact (hs.setAgenda hrest).take_answers hown

/-- Settles O25: branch A, whose CAP bytes fill the half. -/
theorem refillMoreThanAHalf : Obligations.RefillMoreThanAHalf := by
  intro s hs hlive hthr hpend hen hcap hbuf
  have hcount := State.refillCount_of_cap_lt hcap
  obtain ⟨-, hhalf, -⟩ := Params.wf_half hs.1
  refine ⟨s.pmem.encodeBytes s.par s.txoff s.refillBytes, ?_, by rw [PMem.length_encodeBytes, hs.2],
    fun k hk j hj => State.read_encode_refillBytes hs (hk.trans_eq hcount.symm) hj,
    fun x hx => State.read_encode_refillBytes_other hs fun k hk => hx k (by omega)⟩
  rw [exec_refill_of_canRefill hthr (s.canRefill_iff.2 ⟨hlive, hpend, hen⟩) (by rw [hcount]; exact hbuf),
    State.refillWith_of_cap_lt _ hcap]
  rfl

/-- Settles O27: branch C; the terminator's entry is none of the bytes', as they fit one half. -/
theorem refillPartialRemainder : Obligations.RefillPartialRemainder := by
  intro s hs hlive hthr hpend hen hlen hcap hbuf
  have hcount := State.refillCount_of_le_cap hcap
  obtain ⟨hfit, hlt⟩ := State.refillBytes_fit hs
  rw [State.length_refillBytes, hcount] at hfit
  have hread := PMem.read_write (m := s.pmem.encodeBytes s.par s.txoff s.refillBytes)
    (by simpa using State.sized_pmem_pos hs) (s.txoff + 8 * s.len.toNat) wordTerm
  rw [PMem.length_encodeBytes, hs.2] at hread
  rw [hs.2] at hlt
  refine ⟨(s.pmem.encodeBytes s.par s.txoff s.refillBytes).write (s.txoff + 8 * s.len.toNat) wordTerm, ?_,
    by simp [hs.2], fun k hk j hj => ?_, by rw [hread, if_pos rfl]; rfl, fun x hx => ?_⟩
  · rw [exec_refill_of_canRefill hthr (s.canRefill_iff.2 ⟨hlive, hpend, hen⟩) (by rw [hcount]; exact hbuf),
      State.refillWith_of_le_cap _ hlen hcap]
    rfl
  · have hne := add_mod_ne_add_mod (d := 8 * k + j) s.txoff (by omega) (hfit.trans_lt hlt)
    rw [hread, if_neg (by rwa [← Nat.add_assoc] at hne)]
    exact State.read_encode_refillBytes hs (hk.trans_eq hcount.symm) hj
  · rw [hread, if_neg (hx _ le_rfl)]
    exact State.read_encode_refillBytes_other hs fun k hk => hx k (by omega)

/-- Settles O26: branch B reads nothing and writes one entry. -/
theorem refillNothingLeft : Obligations.RefillNothingLeft := by
  intro s hs hlive hthr hpend hen hlen
  have hcount : s.refillCount = 0 := Nat.le_zero.1 (s.refillCount_le_len.trans_eq (by rw [hlen]; rfl))
  have hread := PMem.read_write (State.sized_pmem_pos hs) s.txoff wordTerm
  refine ⟨s.pmem.write s.txoff wordTerm, ?_, by rw [PMem.length_write, hs.2], by rw [hread, if_pos rfl]; rfl,
    fun x hx => by rw [hread, hs.2, if_neg hx]⟩
  rw [exec_refill_of_memReads hthr (s.canRefill_iff.2 ⟨hlive, hpend, hen⟩) (by rw [hcount]; rfl),
    State.refillWith_of_len_zero _ hlen]
  rfl

/-- Settles O28: the step serves the event, which is not enabled. -/
theorem refillHoldsWithoutAnEvent : Obligations.RefillHoldsWithoutAnEvent := by
  intro s rest hag hoff
  rw [step_of_agenda_cons hag]
  refine exec_refill_of_not_canRefill (s := { s with agenda := rest, issuer := .thr }) rfl ?_
  rcases hoff with h | h <;> simp [State.canRefill, h]

end Sys2Proof.Machine
end

section
/-! SUPPORT. What the playback engine's step does to the latched entry of each class (R161 to R167), how the end of a
PB_STEP orders its checks (R211), how long a frame lasts (R181), and the obligations about them. -/

namespace Sys2Proof.Machine

/-! ## The latched entry by its class (R162 to R164) -/

section
variable {s : State}

theorem State.canPlay_iff (s : State) : s.canPlay = true ↔ s.live = true ∧ s.pbRun = true := by
  simp [State.canPlay]

/-- Emitting both halves and latching the next entry is R162's first five lines. -/
theorem State.emit_emit_latchNext (s : State) (lvl0 : Level) (dur0 : Dur) (lvl1 : Level) (dur1 : Dur) :
    ((s.emit lvl0 dur0).emit lvl1 dur1).latchNext = s.played lvl0 dur0 lvl1 dur1 := by
  simp [State.emit, State.latchNext, State.played]

/-- An entry of class PAIR, under whatever name, plays its two halves (R94, R162). -/
theorem exec_of_pairHalves {i : Instr} {x : Level × Dur × Level × Dur} (hi : pairHalves i = some x) (s : State) :
    exec i s = .next (s.playPair x.1 x.2.1 x.2.2.1 x.2.2.2) := by
  cases i with
  | pair | bit0 | bit1 | latch =>
    obtain rfl := Option.some.inj hi
    rfl
  | _ => cases hi

/-- An entry of class END0, under either name, ends playback (R163, log entry 20). -/
theorem exec_of_isEnd0 {i : Instr} (hi : isEnd0 i = true) (s : State) : exec i s = .next s.playEnd0 := by
  cases i with
  | end0 | term => rfl
  | _ => cases hi

theorem State.playPair_of_canPlay (hp : s.canPlay = true) (lvl0 : Level) (dur0 : Dur) (lvl1 : Level) (dur1 : Dur) :
    s.playPair lvl0 dur0 lvl1 dur1 = (s.played lvl0 dur0 lvl1 dur1).afterLatch := by
  rw [State.playPair, if_pos hp, State.emit_emit_latchNext]

theorem State.playEnd1_of_canPlay (hp : s.canPlay = true) (lvl0 : Level) (dur0 : Dur) :
    s.playEnd1 lvl0 dur0 = (s.emit lvl0 dur0).endPlayback := if_pos hp

theorem State.playEnd0_of_canPlay (hp : s.canPlay = true) : s.playEnd0 = s.endPlayback := if_pos hp

/-- Without a step of the playback engine its choice holds (R161). -/
theorem State.take_play_of_not_canPlay (hp : s.canPlay = false) : s.take .play = .next s := by
  rcases s.take_play_cases with ⟨-, e⟩ | ⟨hp', -⟩ | ⟨hp', -⟩ | ⟨hp', -⟩
  case inl => exact e
  all_goals simp [hp] at hp'

end

/-! ## The order of the checks after a latch (R211) -/

section
variable {u : State}

/-- THR is raised where RP is at a half boundary and the handler is hooked (R166). -/
theorem State.raisesThr_iff (u : State) : u.raisesThr ↔ u.atBoundary = true ∧ u.rflEn = true := by
  simp [State.raisesThr, State.atBoundary]

/-- An event while one is pending is Underrun (R166, R204). -/
theorem State.raiseThr_of_pending (hen : u.rflEn = true) (hpend : u.thrPending = true) :
    u.raiseThr = u.raised 4#4 (BitVec.ofNat 32 u.rp) :=
  (if_pos hen).trans (if_pos hpend)

/-- Otherwise it becomes pending (R166). -/
theorem State.raiseThr_of_not_pending (hen : u.rflEn = true) (hpend : u.thrPending = false) :
    u.raiseThr = { u with thrPending := true } :=
  (if_pos hen).trans (if_neg (by simp [hpend]))

/-- While the handler is not hooked an event is discarded (R166). -/
theorem State.raiseThr_of_not_rflEn (hen : u.rflEn = false) : u.raiseThr = u := if_neg (by simp [hen])

theorem State.timeoutCheck_of_overTime (h : u.overTime) :
    u.timeoutCheck = u.raised 3#4 (BitVec.ofNat 32 u.elapsed) := if_pos h

theorem State.timeoutCheck_of_not_overTime (h : ¬u.overTime) : u.timeoutCheck = u := if_neg h

/-- A latched END0 ends playback in place of any event (R163). -/
theorem State.afterLatch_of_end0 (h0 : entryDur0 u.cur = 0#15) : u.afterLatch = u.ended := if_pos h0

variable (h0 : entryDur0 u.cur ≠ 0#15) (hf : u.faulted = false)
include h0

/-- Where THR is raised with one pending, the step ends with Underrun (R166, R211). -/
theorem State.afterLatch_of_underrun (hr : u.raisesThr) (hpend : u.thrPending = true) :
    u.afterLatch = u.raised 4#4 (BitVec.ofNat 32 u.rp) := by
  obtain ⟨hb, hen⟩ := u.raisesThr_iff.1 hr
  rw [State.afterLatch, if_neg h0, if_pos hb, State.raiseThr_of_pending hen hpend]
  rfl

include hf

/-- Where THR becomes pending, the timeout check follows (R166, R211). -/
theorem State.afterLatch_of_raisesThr (hr : u.raisesThr) (hpend : u.thrPending = false) :
    u.afterLatch = ({ u with thrPending := true } : State).timeoutCheck := by
  obtain ⟨hb, hen⟩ := u.raisesThr_iff.1 hr
  rw [State.afterLatch, if_neg h0, if_pos hb, State.raiseThr_of_not_pending hen hpend, if_neg (by simp [hf])]

/-- Where no THR is raised, only the timeout check follows (R111). -/
theorem State.afterLatch_of_not_raisesThr (hr : ¬u.raisesThr) : u.afterLatch = u.timeoutCheck := by
  rw [State.raisesThr_iff, not_and, Bool.not_eq_true] at hr
  rw [State.afterLatch, if_neg h0]
  split
  case isTrue hb => rw [State.raiseThr_of_not_rflEn (hr hb), if_neg (by simp [hf])]
  case isFalse => rfl

/-- Past the limit, the step ends with WaitTimeout unless it ended with Underrun (R111, R212). -/
theorem State.afterLatch_of_overTime (hr : ¬(u.raisesThr ∧ u.thrPending = true)) (ht : u.overTime) :
    u.afterLatch = u.raised 3#4 (BitVec.ofNat 32 u.elapsed) := by
  by_cases hthr : u.raisesThr
  · have hpend : u.thrPending = false := Bool.eq_false_iff.2 fun h => hr ⟨hthr, h⟩
    rw [State.afterLatch_of_raisesThr h0 hf hthr hpend]
    exact State.timeoutCheck_of_overTime (u := { u with thrPending := true }) ht
  · rw [State.afterLatch_of_not_raisesThr h0 hf hthr, State.timeoutCheck_of_overTime ht]

/-- What a latch leaves where nothing faults and playback does not end: THR made pending where it is raised, or nothing
more (R211). -/
theorem State.afterLatch_of_not_faulted (hl : u.afterLatch.faulted = false) :
    (u.raisesThr ∧ u.thrPending = false ∧ u.afterLatch = { u with thrPending := true }) ∨
    (¬u.raisesThr ∧ u.afterLatch = u) := by
  have hover : ¬u.overTime := fun ht => by
    by_cases hr : u.raisesThr ∧ u.thrPending = true
    · simp [State.afterLatch_of_underrun h0 hr.1 hr.2, State.raised] at hl
    · simp [State.afterLatch_of_overTime h0 hf hr ht, State.raised] at hl
  by_cases hr : u.raisesThr
  · cases hpend : u.thrPending with
    | true => simp [State.afterLatch_of_underrun h0 hr hpend, State.raised] at hl
    | false =>
      refine .inl ⟨hr, rfl, ?_⟩
      rw [State.afterLatch_of_raisesThr h0 hf hr hpend]
      exact State.timeoutCheck_of_not_overTime (u := { u with thrPending := true }) hover
  · refine .inr ⟨hr, ?_⟩
    rw [State.afterLatch_of_not_raisesThr h0 hf hr, State.timeoutCheck_of_not_overTime hover]

end

/-- R111: playback that goes on after a latch is within the limit. -/
theorem State.not_overTime_of_afterLatch {u : State} (hf : u.faulted = false) (hrun : u.afterLatch.pbRun = true) :
    ¬u.overTime := by
  intro ht
  by_cases h0 : entryDur0 u.cur = 0#15
  · rw [State.afterLatch_of_end0 h0] at hrun
    cases hrun
  · by_cases hr : u.raisesThr ∧ u.thrPending = true
    · rw [State.afterLatch_of_underrun h0 hr.1 hr.2] at hrun
      cases hrun
    · rw [State.afterLatch_of_overTime h0 hf hr ht] at hrun
      cases hrun

/-- While playback runs, the latched entry is no END0 and emits a half of some length; CTL waits without DONE, so that
playback past the limit faults (R111, R161). -/
theorem State.Inv.take_play_progress {s : State} (hs : s.Inv) (hlive : s.live = true) (hrun : s.pbRun = true) :
    ∃ t, s.take .play = .next t ∧ s.elapsed < t.elapsed ∧ (t.pbRun = true → t.elapsed ≤ t.par.waitTimeout) := by
  have hcur := hs.runEntry hrun
  have hpos : 0 < (entryDur0 s.cur).toNat := Nat.pos_of_ne_zero fun h => hcur (BitVec.eq_of_toNat_eq h)
  obtain ⟨hw, -, hd⟩ := hs.runWait hrun
  rcases s.take_play_cases with ⟨hp, -⟩ | ⟨-, h0, -⟩ | ⟨-, -, -, e⟩ | ⟨-, -, -, e⟩
  · simp [State.canPlay, hlive, hrun] at hp
  · exact absurd h0 hcur
  · exact ⟨_, e, Nat.lt_add_of_pos_right hpos, nofun⟩
  · refine ⟨_, e, ?_, fun hgo => ?_⟩
    · simp only [State.afterLatch_elapsed, State.latchNext_elapsed, State.emit_elapsed]
      omega
    · rw [State.afterLatch_elapsed, (State.afterLatch_quiet _).par]
      refine Nat.not_lt.1 fun hlt => State.not_overTime_of_afterLatch ?_ hgo ⟨hw, hd, hlt⟩
      exact (s.live_iff.1 hlive).1

/-! ## The length of a frame (R181) -/

@[simp] theorem unitsOf_append (xs ys : List Segment) : unitsOf (xs ++ ys) = unitsOf xs + unitsOf ys := by
  simp [unitsOf]

/-- The latch block has LATCH_LEN entries of two segments (R8, R173). -/
theorem length_latchBlockSegments (p : Params) : (latchBlockSegments p).length = 2 * p.latchLen := by
  simp [latchBlockSegments, latchSegments, Nat.mul_comm]

theorem unitsOf_latchSegments (p : Params) : unitsOf (latchSegments p) = 2 * p.latchD.toNat := by
  simp [unitsOf, latchSegments, Nat.two_mul]

theorem unitsOf_latchBlockSegments (p : Params) : unitsOf (latchBlockSegments p) = 2 * p.latchLen * p.latchD.toNat := by
  rw [latchBlockSegments]
  induction p.latchLen with
  | zero => simp [unitsOf]
  | succ n ih =>
    rw [List.replicate_succ, List.flatten_cons, unitsOf_append, unitsOf_latchSegments, ih]
    ring

theorem length_bitSegments (p : Params) (b : Bool) : (bitSegments p b).length = 2 := by
  cases b <;> rfl

/-- Each bit lasts as long as its value says (R83, R84). -/
theorem unitsOf_bitSegments (p : Params) (b : Bool) :
    unitsOf (bitSegments p b) = if b then p.t1h.toNat + p.t1l.toNat else p.t0h.toNat + p.t0l.toNat := by
  cases b <;> simp [unitsOf, bitSegments]

/-- So a list of bits lasts as long as its zeros and its ones. -/
theorem unitsOf_flatMap_bitSegments (p : Params) (bits : List Bool) :
    unitsOf (bits.flatMap (bitSegments p)) =
      (bits.length - bits.countP id) * (p.t0h.toNat + p.t0l.toNat) + bits.countP id * (p.t1h.toNat + p.t1l.toNat) := by
  induction bits with
  | nil => simp [unitsOf]
  | cons b bits ih =>
    have hle := bits.countP_le_length (p := id)
    rw [List.flatMap_cons, unitsOf_append, unitsOf_bitSegments, ih]
    cases b with
    | false =>
      rw [List.countP_cons_of_neg Bool.false_ne_true, List.length_cons, Nat.sub_add_comm hle, if_neg Bool.false_ne_true]
      ring
    | true =>
      rw [List.countP_cons_of_pos rfl, List.length_cons, Nat.add_sub_add_right, if_pos rfl]
      ring

/-- The bits of a list of bytes in the order they are sent (R62). -/
theorem dataSegments_eq (p : Params) (bs : List Byte) :
    dataSegments p bs = (bs.flatMap bitsMsbFirst).flatMap (bitSegments p) := List.flatMap_assoc.symm

theorem length_flatMap_bitsMsbFirst (bs : List Byte) : (bs.flatMap bitsMsbFirst).length = 8 * bs.length := by
  simp [List.length_flatMap, bitsMsbFirst, Nat.mul_comm]

theorem length_frame (p : Params) (bs : List Byte) : (frame p bs).length = 2 * (p.latchLen + 8 * bs.length) := by
  rw [frame, List.length_append, length_latchBlockSegments, dataSegments_eq, List.length_flatMap]
  simp only [length_bitSegments, List.map_const', List.sum_replicate, length_flatMap_bitsMsbFirst, smul_eq_mul]
  ring

theorem unitsOf_frame (p : Params) (bs : List Byte) :
    unitsOf (frame p bs) =
      2 * p.latchLen * p.latchD.toNat + (8 * bs.length - onesOf bs) * (p.t0h.toNat + p.t0l.toNat) +
        onesOf bs * (p.t1h.toNat + p.t1l.toNat) := by
  rw [frame, unitsOf_append, unitsOf_latchBlockSegments, dataSegments_eq, unitsOf_flatMap_bitSegments,
    length_flatMap_bitsMsbFirst, Nat.add_assoc, onesOf]

theorem onesOf_le (bs : List Byte) : onesOf bs ≤ 8 * bs.length :=
  List.countP_le_length.trans_eq (length_flatMap_bitsMsbFirst bs)

/-! ## The obligations -/

/-- Settles O45: by the latched entry's progress. -/
theorem playbackMakesProgress : Obligations.PlaybackMakesProgress := by
  intro s rest hs hlive hrun hag
  rw [step_of_agenda_cons hag]
  exact (hs.setAgenda fun c hc => hs.agendaOwn c (by simp [hag, hc])).take_play_progress hlive hrun

/-- Settles O49: the latch block and each bit have their own lengths; at most all bits are 1. -/
theorem frameLength : Obligations.FrameLength := by
  refine ⟨fun p bs => ⟨length_frame p bs, unitsOf_frame p bs⟩, fun bs => ?_⟩
  have hle := onesOf_le bs
  have hunits : unitsOf (frame {} bs) = 512 + (8 * bs.length - onesOf bs) * 11 + onesOf bs * 14 := unitsOf_frame {} bs
  omega

/-- Settles O9: the state before the checks is R162's, and the checks come in R211's order. -/
theorem pairStep : Obligations.PairStep := by
  intro s i lvl0 lvl1 dur0 dur1 hi hlive hrun u
  have hexec : exec i s = .next u.afterLatch :=
    (exec_of_pairHalves hi s).trans (congrArg _ (State.playPair_of_canPlay (s.canPlay_iff.2 ⟨hlive, hrun⟩) ..))
  have hf : u.faulted = false := (s.live_iff.1 hlive).1
  rw [hexec]
  refine ⟨fun h0 => congrArg _ (State.afterLatch_of_end0 h0),
    fun h0 hr hpend => congrArg _ (State.afterLatch_of_underrun h0 hr hpend),
    fun h0 hr ht => congrArg _ (State.afterLatch_of_overTime h0 hf hr ht), fun h0 hr hpend ht => ?_,
    fun h0 hr ht => ?_⟩
  · rw [State.afterLatch_of_raisesThr h0 hf hr hpend]
    exact congrArg _ (State.timeoutCheck_of_not_overTime (u := { u with thrPending := true }) ht)
  · rw [State.afterLatch_of_not_raisesThr h0 hf hr, State.timeoutCheck_of_not_overTime ht]

/-- Settles O10: the step is enabled; END_PLAYBACK follows the first half. -/
theorem end1Step : Obligations.End1Step := fun s lvl0 _ dur0 hlive hrun =>
  congrArg _ (State.playEnd1_of_canPlay (s.canPlay_iff.2 ⟨hlive, hrun⟩) lvl0 dur0)

/-- Settles O11: the step is enabled, and it is END_PLAYBACK alone. -/
theorem end0Step : Obligations.End0Step := by
  intro s i hi hlive hrun
  rw [exec_of_isEnd0 hi, State.playEnd0_of_canPlay (s.canPlay_iff.2 ⟨hlive, hrun⟩)]
  rfl

/-- Settles O12: the playback choice is not enabled. -/
theorem playbackHoldsWhenNotRunning : Obligations.PlaybackHoldsWhenNotRunning := by
  intro s rest hag hrun
  rw [step_of_agenda_cons hag]
  refine State.take_play_of_not_canPlay (Bool.eq_false_iff.2 fun hp => ?_)
  simpa [hrun] using ((State.canPlay_iff _).1 hp).2

end Sys2Proof.Machine
end

section
/-! SUPPORT. Schedules: every step of the spec leaves the rest of the agenda as it is (R13), no step but reset revives a
machine (R14, R207), and what each step of a schedule keeps holds at its end. -/

namespace Sys2Proof.Machine

/-! ## The agenda is the environment's (R13) -/

theorem State.doConfigure_agenda (s : State) (div : BitVec 8) : (s.doConfigure div).agenda = s.agenda := by
  rcases s.doConfigure_cases div with ⟨info, e⟩ | ⟨-, e⟩ <;> simp only [e, State.raiseFault]

theorem State.startPlayback_agenda (s : State) : s.startPlayback.agenda = s.agenda := by
  unfold State.startPlayback
  split <;> rfl

theorem State.writeBlock_agenda (s : State) (wait : Bool) (entries : List Word) :
    (s.writeBlock wait entries).agenda = s.agenda := by
  have hp := State.startPlayback_agenda { s with pmem := s.pmem.writeMany 0 entries }
  unfold State.writeBlock
  split
  · rfl
  · split
    · exact hp
    · exact hp

theorem State.startFrame_agenda (s : State) (base len : Word) : (s.startFrame base len).agenda = s.agenda := by
  have hw := State.writeBlock_agenda
    ({ s with bufBase := base, bufLen := len, pos := 0#32, len := len, txoff := 0 } : State).hook false (latchBlock s.par)
  simp only [State.startFrame]
  split
  · exact hw
  · exact hw

theorem State.accept_agenda (s : State) (h : Nat) : (s.accept h).agenda = s.agenda := by
  rcases s.accept_cases h with e | ⟨-, -, -, base, len, -, e⟩ <;> rw [e]
  rcases s.acceptShow_cases h base len with ⟨-, e'⟩ | ⟨-, -, e'⟩ | ⟨-, -, e'⟩ <;> rw [e']
  · rfl
  · rfl
  · exact State.startFrame_agenda _ _ _

theorem State.complete_agenda (s : State) : s.complete.agenda = s.agenda := by
  rcases s.complete_cases with e | ⟨-, -, -, ⟨h, -, e⟩ | ⟨-, e⟩⟩ <;> rw [e] <;> rfl

theorem State.refillWith_agenda (s : State) (bs : List Byte) : (s.refillWith bs).agenda = s.agenda := by
  unfold State.refillWith
  split
  · rfl
  · split <;> rfl

theorem State.afterLatch_agenda (s : State) : s.afterLatch.agenda = s.agenda := by
  rcases s.afterLatch_results with ⟨-, e⟩ | ⟨-, e | e | ⟨k, info, e⟩⟩ <;> rw [e] <;> rfl

/-- No choice of the spec's own touches what is left on the agenda. -/
theorem State.take_agenda {s t : State} {c : Choice} (hc : c.own = true) (ht : s.take c = .next t) :
    t.agenda = s.agenda := by
  cases c with
  | issue who words ok =>
    cases who with
    | host h =>
      rcases State.take_issue_host_cases ht with rfl | rfl | ⟨-, -, div, rfl⟩ | ⟨-, base, len, -, rfl⟩ | ⟨-, rfl⟩
      case inr.inr.inl => exact State.doConfigure_agenda { s with issuer := .host h, installOk := ok } div
      all_goals rfl
    | ctl | rfl | thr => cases hc
  | memWrite h a b => rcases State.take_memWrite_cases ht with rfl | ⟨-, -, -, rfl⟩ <;> rfl
  | accept h =>
    obtain rfl := Host.Outcome.next.inj ht
    exact s.accept_agenda h
  | complete =>
    obtain rfl := Host.Outcome.next.inj ht
    exact s.complete_agenda
  | refill =>
    rcases State.take_refill_cases ht with ⟨-, rfl⟩ | ⟨-, bs, -, rfl⟩
    · rfl
    · exact State.refillWith_agenda _ bs
  | play =>
    rcases s.take_play_cases with ⟨-, e⟩ | ⟨-, -, e⟩ | ⟨-, -, -, e⟩ | ⟨-, -, -, e⟩ <;>
      obtain rfl := Host.Outcome.next.inj (e.symm.trans ht)
    case inr.inr.inr => exact State.afterLatch_agenda _
    all_goals rfl
  | reset =>
    obtain rfl := Host.Outcome.next.inj ht
    rfl

/-! ## A machine that is not live stays so (R14, R207) -/

/-- A choice of the spec's own but reset leaves a live machine only where there was one. -/
theorem State.live_of_take {s t : State} {c : Choice} (hc : c.own = true) (hreset : c ≠ .reset)
    (ht : s.take c = .next t) (hlive : t.live = true) : s.live = true := by
  cases c with
  | issue who words ok =>
    cases who with
    | host h =>
      rcases State.take_issue_host_cases ht with rfl | rfl | ⟨hi, -⟩ | ⟨hi, -⟩ | ⟨hi, -⟩
      · exact hlive
      · exact absurd ((State.live_iff _).1 hlive).2 (by simp [State.refuse])
      all_goals exact (((State.canIssue_iff _).1 hi).1 :)
    | ctl | rfl | thr => cases hc
  | memWrite h a b =>
    rcases State.take_memWrite_cases ht with rfl | ⟨hl, -⟩
    · exact hlive
    · exact hl
  | accept h =>
    obtain rfl := Host.Outcome.next.inj ht
    rcases s.accept_cases h with e | ⟨hl, -⟩
    · rwa [e] at hlive
    · exact hl
  | complete =>
    obtain rfl := Host.Outcome.next.inj ht
    rcases s.complete_cases with e | ⟨hl, -⟩
    · rwa [e] at hlive
    · exact hl
  | refill =>
    rcases State.take_refill_cases ht with ⟨-, rfl⟩ | ⟨hr, -⟩
    · exact hlive
    · exact (s.canRefill_iff.1 hr).1
  | play =>
    rcases s.take_play_cases with ⟨-, e⟩ | ⟨hp, -⟩ | ⟨hp, -⟩ | ⟨hp, -⟩
    · obtain rfl := Host.Outcome.next.inj (e.symm.trans ht)
      exact hlive
    all_goals exact (s.canPlay_iff.1 hp).1
  | reset => exact absurd rfl hreset

/-! ## Runs -/

/-- A run that answers takes a first step that answers, and then the others. -/
theorem exists_step_of_run {k : Nat} {s u : State} (hr : Host.Core.run Sys2Proof.core (k + 1) s = .next u) :
    ∃ t, step s = .next t ∧ Host.Core.run Sys2Proof.core k t = .next u := by
  have hcore : Sys2Proof.core.step s = step s := rfl
  simp only [Host.Core.run, hcore] at hr
  cases hs : step s with
  | next t => exact ⟨t, rfl, by simpa only [hs] using hr⟩
  | fault r => simp [hs] at hr
  | refused r => simp [hs] at hr

/-- What each choice of a schedule keeps holds at the schedule's end. -/
theorem run_keeps {P : State → Prop} {es rest : List Choice} (hown : ∀ c ∈ es, c.own = true)
    (hstep : ∀ c ∈ es, ∀ (u v : State) (later : List Choice), u.agenda = c :: later → P u → step u = .next v → P v)
    {s t : State} (hag : s.agenda = es ++ rest) (hs : P s)
    (hr : Host.Core.run Sys2Proof.core es.length s = .next t) : P t := by
  induction es generalizing s with
  | nil =>
    obtain rfl : s = t := Host.Outcome.next.inj hr
    exact hs
  | cons c es ih =>
    obtain ⟨hc, hes⟩ := List.forall_mem_cons.1 hown
    obtain ⟨hfirst, hothers⟩ := List.forall_mem_cons.1 hstep
    obtain ⟨u, hu, hlater⟩ := exists_step_of_run hr
    have hagu : u.agenda = es ++ rest :=
      State.take_agenda (s := { s with agenda := es ++ rest }) hc ((step_of_agenda_cons hag).symm.trans hu)
    exact ih hes hothers hagu (hfirst s u _ hag hs hu) hlater

end Sys2Proof.Machine
end

section
/-! SUPPORT. R180: what holds of a session between its acceptance and DONE, in terms of how many entries were played and how
far the pulse memory is written; each step of a schedule keeps it, so a frame that reaches DONE was sent whole. -/

namespace Sys2Proof.Machine

/-! ## The entries of a frame and their segments (R94, R180) -/

/-- A frame to be sent: the parameters, the buffer and its bytes at acceptance, and the output before it. -/
structure FrameJob where
  par : Params
  base : Word
  len : Word
  bytes : List Byte
  before : List Segment

namespace FrameJob

/-- The entries that make up the frame: the latch block and those of the bytes. -/
def entries (F : FrameJob) : List Word := latchBlock F.par ++ bytesEntries F.par F.bytes

/-- How many they are. -/
def total (F : FrameJob) : Nat := F.entries.length

/-- The entry played as number `m`; the terminator follows the frame's own (R144, R145). -/
def entry (F : FrameJob) (m : Nat) : Word := F.entries.getD m wordTerm

end FrameJob

/-- The two segments of a played entry (R162). -/
def entrySegments (w : Word) : List Segment :=
  [⟨entryLvl0 w, (entryDur0 w).toNat⟩, ⟨entryLvl1 w, (entryDur1 w).toNat⟩]

/-- The output of the first `n` entries of a frame. -/
def FrameJob.sent (F : FrameJob) (n : Nat) : List Segment := (F.entries.take n).flatMap entrySegments

theorem entrySegments_bitEntry (p : Params) (b : Bool) : entrySegments (bitEntry p b) = bitSegments p b := by
  cases b <;> simp [entrySegments, bitEntry, bitSegments]

theorem entrySegments_latchEntry (p : Params) : entrySegments (latchEntry p) = latchSegments p := by
  simp [entrySegments, latchEntry, latchSegments]

/-- The segments of the bytes' entries are those of their bits (R83, R84). -/
theorem flatMap_entrySegments_bytesEntries (p : Params) (bs : List Byte) :
    (bytesEntries p bs).flatMap entrySegments = dataSegments p bs := by
  simp only [bytesEntries, byteEntries, dataSegments, List.flatMap_assoc, List.flatMap_map, entrySegments_bitEntry]

theorem flatMap_entrySegments_latchBlock (p : Params) :
    (latchBlock p).flatMap entrySegments = latchBlockSegments p := by
  simp only [latchBlock, latchBlockSegments, List.flatMap_replicate, entrySegments_latchEntry]

/-- The legal parameters' data durations are not 0 (R5). -/
theorem Params.wf_durations {p : Params} (h : p.wf = true) :
    p.t0h ≠ 0#15 ∧ p.t0l ≠ 0#15 ∧ p.t1h ≠ 0#15 ∧ p.t1l ≠ 0#15 := by
  simp only [Params.wf, Params.timingWf, Bool.and_eq_true, bne_iff_ne, ne_eq] at h
  obtain ⟨⟨-, ⟨⟨⟨⟨⟨h0h, h0l⟩, h1h⟩, h1l⟩, -⟩, -⟩, -⟩, -⟩ := h
  exact ⟨h0h, h0l, h1h, h1l⟩

/-- Both durations of an entry, as its class says (R82). -/
def isPairEntry (w : Word) : Prop := entryDur0 w ≠ 0#15 ∧ entryDur1 w ≠ 0#15

theorem isPairEntry_latchEntry {p : Params} (hp : p.wf = true) : isPairEntry (latchEntry p) := by
  simpa [isPairEntry, latchEntry] using Params.wf_latchD hp

theorem isPairEntry_bitEntry {p : Params} (hp : p.wf = true) (b : Bool) : isPairEntry (bitEntry p b) := by
  obtain ⟨h0h, h0l, h1h, h1l⟩ := Params.wf_durations hp
  cases b
  · simpa [isPairEntry, bitEntry] using ⟨h0h, h0l⟩
  · simpa [isPairEntry, bitEntry] using ⟨h1h, h1l⟩

theorem isPairEntry_of_mem_bytesEntries {p : Params} (hp : p.wf = true) {bs : List Byte} {w : Word}
    (h : w ∈ bytesEntries p bs) : isPairEntry w := by
  simp only [bytesEntries, byteEntries, List.mem_flatMap, List.mem_map] at h
  obtain ⟨_, _, b, _, rfl⟩ := h
  exact isPairEntry_bitEntry hp b

namespace FrameJob

section
variable (F : FrameJob)

/-- The whole output is FRAME (R180). -/
theorem sent_total : F.sent F.total = frame F.par F.bytes := by
  rw [sent, total, List.take_length, entries, List.flatMap_append, flatMap_entrySegments_latchBlock,
    flatMap_entrySegments_bytesEntries, frame]

theorem sent_zero : F.sent 0 = [] := rfl

variable {F}

/-- Each entry adds its two segments. -/
theorem sent_succ {n : Nat} (hn : n < F.total) : F.sent (n + 1) = F.sent n ++ entrySegments (F.entry n) := by
  have hget : F.entry n = F.entries[n] := by simp [entry, List.getD_eq_getElem?_getD, List.getElem?_eq_getElem hn]
  rw [sent, List.take_succ_eq_append_getElem hn, List.flatMap_append, hget, List.flatMap_singleton, sent]

/-- After the frame's own entries comes TERM. -/
theorem entry_total : F.entry F.total = wordTerm := by
  simp [entry, total]

variable (hp : F.par.wf = true)
include hp

theorem total_eq : F.total = F.par.nMem + 8 * F.bytes.length := by
  rw [total, entries, List.length_append, length_bytesEntries, latchBlock, List.length_replicate,
    (Params.wf_geometry hp).2.2]

/-- The first N_MEM entries are the latch block's (R8). -/
theorem entry_latch {m : Nat} (hm : m < F.par.nMem) : F.entry m = latchEntry F.par := by
  have hl : (latchBlock F.par).length = F.par.nMem := by
    rw [latchBlock, List.length_replicate, (Params.wf_geometry hp).2.2]
  rw [entry, entries, List.getD_eq_getElem?_getD, List.getElem?_append_left (by omega)]
  simp [latchBlock, (Params.wf_geometry hp).2.2, hm]

/-- Then comes each byte, most significant bit first (R62, R147). -/
theorem entry_bit {k j : Nat} {b : Byte} (hb : F.bytes[k]? = some b) (hj : j < 8) :
    F.entry (F.par.nMem + (8 * k + j)) = bitEntry F.par (b.getLsbD (7 - j)) := by
  have hl : (latchBlock F.par).length = F.par.nMem := by
    rw [latchBlock, List.length_replicate, (Params.wf_geometry hp).2.2]
  rw [entry, entries, List.getD_eq_getElem?_getD, List.getElem?_append_right (by omega), hl, Nat.add_sub_cancel_left,
    getElem?_bytesEntries F.par hb hj, Option.getD_some]

/-- The frame's own entries are pairs. -/
theorem isPairEntry_entry {m : Nat} (hm : m < F.total) : isPairEntry (F.entry m) := by
  have hmem : F.entry m ∈ F.entries := by
    rw [entry, List.getD_eq_getElem?_getD, List.getElem?_eq_getElem hm]
    exact List.getElem_mem hm
  rcases List.mem_append.1 hmem with h | h
  · rw [List.eq_of_mem_replicate h]
    exact isPairEntry_latchEntry hp
  · exact isPairEntry_of_mem_bytesEntries hp h

end

end FrameJob

/-! ## The session of a frame -/

/-- The session of `F`: what stays as acceptance left it until completion (R103, R235). -/
structure State.InSession (F : FrameJob) (s : State) : Prop where
  inv : s.Inv
  par : s.par = F.par
  ctl : s.ctl = .waiting
  bufBase : s.bufBase = F.base
  bufLen : s.bufLen = F.len
  bytes : s.bufferBytes F.base F.len = F.bytes

/-- The frame is under way: `n` entries were played and the next one is latched; the pulse memory is written up to entry
`w`, its frontier, a multiple of H that a refill moves on by H. -/
structure State.Playing (F : FrameJob) (n w : Nat) (s : State) : Prop where
  notDone : s.done = false
  inside : n < F.total
  trace : s.trace = F.before ++ F.sent n
  elapsed : s.elapsed = unitsOf (F.sent n)
  rp : s.rp = n % F.par.nMem
  cur : s.cur = F.entry n
  /-- R141: the frontier is at a half boundary, after the latch block. -/
  frontierHalf : F.par.half ∣ w
  frontierLatch : F.par.nMem ≤ w
  /-- R166: the entry to play stands in the half before the frontier's where an event is pending … -/
  behind : s.thrPending = true → w ≤ n + F.par.half ∧ n < w
  /-- … and in the half before that where none is. -/
  ahead : s.thrPending = false → w ≤ n + F.par.nMem ∧ n + F.par.half < w
  txoff : s.txoff = w % F.par.nMem
  /-- R22: LEN counts the bytes whose entries are not written yet. -/
  rest : 8 * s.len.toNat = F.total - w
  /-- The entries to be played, as far as they are written: up to the frontier, and up to the terminator once it is. -/
  written : ∀ m, n < m → m ≤ F.total → (m < w ∨ (F.par.nMem < w ∧ s.len = 0#32)) → s.pmem.read m = F.entry m
  /-- Until the terminator is written there is no END0 to be latched. -/
  noEnd : (s.len ≠ 0#32 ∨ w = F.par.nMem) → ∀ i, entryDur0 (s.pmem.read i) ≠ 0#15

/-- The frame is sent whole, and DONE is set (R167). -/
structure State.Sent (F : FrameJob) (s : State) : Prop where
  done : s.done = true
  trace : s.trace = F.before ++ frame F.par F.bytes
  elapsed : s.elapsed = unitsOf (frame F.par F.bytes)

/-- The frame is being sent, or is sent. -/
def State.Sends (F : FrameJob) (s : State) : Prop :=
  s.InSession F ∧ (s.Sent F ∨ ∃ n w, s.Playing F n w)

section
variable {F : FrameJob} {s : State} {n w : Nat}

theorem State.InSession.parWf (hF : s.InSession F) : F.par.wf = true := hF.par ▸ hF.inv.sized.1

theorem State.InSession.length_pmem (hF : s.InSession F) : s.pmem.length = F.par.nMem := by
  rw [hF.inv.sized.2, hF.par]

@[simp] theorem State.length_bufferBytes (s : State) (base len : Word) : (s.bufferBytes base len).length = len.toNat := by
  simp [State.bufferBytes]

theorem State.getElem?_bufferBytes (s : State) (base : Word) {len : Word} {k : Nat} (hk : k < len.toNat) :
    (s.bufferBytes base len)[k]? = some (s.sys.read (base.toNat + k)) := by
  simp [State.bufferBytes, hk]

theorem State.InSession.length_bytes (hF : s.InSession F) : F.bytes.length = F.len.toNat := by
  rw [← hF.bytes, State.length_bufferBytes]

theorem State.InSession.total_eq (hF : s.InSession F) : F.total = F.par.nMem + 8 * F.len.toNat := by
  rw [FrameJob.total_eq hF.parWf, hF.length_bytes]

end

/-! ## Steps that leave the session's engines alone -/

/-- The buffer's bytes are what system memory holds. -/
theorem State.bufferBytes_congr {s t : State} (h : t.sys = s.sys) (base len : Word) :
    t.bufferBytes base len = s.bufferBytes base len := by
  rw [State.bufferBytes, State.bufferBytes, h]

/-- A write outside the buffer leaves its bytes alone (R235). -/
theorem State.bufferBytes_write {s : State} (hwf : s.sys.wf = true) {base len : Word} {a : Nat}
    (ha : a < base.toNat ∨ base.toNat + len.toNat ≤ a) (b : Byte) :
    ({ s with sys := s.sys.write a b } : State).bufferBytes base len = s.bufferBytes base len := by
  refine List.map_congr_left fun k hk => ?_
  have hk := List.mem_range.1 hk
  rw [Memory.read_write hwf, if_neg (by omega)]

/-- What a choice can do while a frame is in flight: a host's step or a hold, which leave the session's engines and the
buffer alone; a playback step; or an enabled refill of the bytes the cursor stands at (R13, R235). -/
theorem State.Inv.take_keepsFrame_cases {s t : State} (hs : s.Inv) (hw : s.ctl = .waiting) {base len : Word} {c : Choice}
    (hc : keepsFrame base len c = true) (ht : s.take c = .next t) :
    (∃ h, State.HostFrame h s t ∧ t.bufferBytes base len = s.bufferBytes base len) ∨
    (s.canPlay = true ∧ s.take .play = .next t) ∨
    (s.canRefill = true ∧ t = ({ s with issuer := .thr } : State).refillWith s.refillBytes) := by
  cases c with
  | issue who words ok =>
    cases who with
    | host h =>
      exact .inl ⟨h, State.take_issue_hostFrame ht,
        State.bufferBytes_congr (State.take_issue_sameLockAndSys ht).sys base len⟩
    | ctl | rfl | thr => cases hc
  | memWrite h a b =>
    refine .inl ⟨h, State.take_memWrite_hostFrame ht, ?_⟩
    rcases State.take_memWrite_cases ht with rfl | ⟨-, -, -, rfl⟩
    · rfl
    · exact State.bufferBytes_write hs.sysWf (by simpa [keepsFrame, Choice.own] using hc) b
  | accept h =>
    obtain rfl := Host.Outcome.next.inj ht
    rcases s.accept_cases h with e | ⟨-, hidle, -⟩
    · rw [e]
      exact .inl ⟨h, {}, rfl⟩
    · simp [hw] at hidle
  | complete | reset => cases hc
  | refill =>
    rcases State.take_refill_cases ht with ⟨-, rfl⟩ | ⟨hr, bs, hbs, rfl⟩
    · exact .inl ⟨0, {}, rfl⟩
    · rw [s.memReads_ok _ _ (hs.refill_inside hr)] at hbs
      obtain rfl := Except.ok.inj hbs
      exact .inr (.inr ⟨hr, rfl⟩)
  | play =>
    cases hp : s.canPlay with
    | false =>
      obtain rfl := Host.Outcome.next.inj ((State.take_play_of_not_canPlay hp).symm.trans ht)
      exact .inl ⟨0, {}, rfl⟩
    | true => exact .inr (.inl ⟨rfl, ht⟩)

section
variable {F : FrameJob} {s t : State} {n w h : Nat} (hf : State.HostFrame h s t)
include hf

theorem State.InSession.of_hostFrame (hF : s.InSession F) (ht : t.Inv)
    (hb : t.bufferBytes F.base F.len = s.bufferBytes F.base F.len) : t.InSession F where
  inv := ht
  par := hf.par.trans hF.par
  ctl := hf.ctl.trans hF.ctl
  bufBase := hf.bufBase.trans hF.bufBase
  bufLen := hf.bufLen.trans hF.bufLen
  bytes := hb.trans hF.bytes

theorem State.Sent.of_hostFrame (hF : s.Sent F) : t.Sent F where
  done := hf.done.trans hF.done
  trace := hf.trace.trans hF.trace
  elapsed := hf.elapsed.trans hF.elapsed

theorem State.Playing.of_hostFrame (hs : s.Inv) (hF : s.Playing F n w) : t.Playing F n w := by
  obtain ⟨-, -, hthr, -⟩ := hf.sameLine hs
  exact {
    notDone := hf.done.trans hF.notDone
    inside := hF.inside
    trace := hf.trace.trans hF.trace
    elapsed := hf.elapsed.trans hF.elapsed
    rp := hf.rp.trans hF.rp
    cur := hf.cur.trans hF.cur
    frontierHalf := hF.frontierHalf
    frontierLatch := hF.frontierLatch
    behind := hthr ▸ hF.behind
    ahead := hthr ▸ hF.ahead
    txoff := hf.txoff.trans hF.txoff
    rest := hf.len ▸ hF.rest
    written := by rw [hf.len, hf.pmem]; exact hF.written
    noEnd := by rw [hf.len, hf.pmem]; exact hF.noEnd }

end

end Sys2Proof.Machine
end

section
/-! SUPPORT. How a frame in flight goes on (R180): a refill moves its frontier on, a playback step its position, until the
terminator is latched; every other choice of a schedule leaves it alone. The obligation about it. -/

namespace Sys2Proof.Machine

/-! ## The refill step of a session (R142 to R147) -/

/-- An index may be counted on from another that names the same entry (R61). -/
theorem PMem.read_mod_add (m : PMem) (w d : Nat) : m.read (w % m.length + d) = m.read (w + d) := by
  rw [← PMem.read_mod, Nat.mod_add_mod, PMem.read_mod]

/-- A whole of CAP bytes less (R143). -/
theorem toNat_sub_ofNat_of_lt {len : Word} {cap : Nat} (h : cap < len.toNat) :
    (len - BitVec.ofNat 32 cap).toNat = len.toNat - cap := by
  have hc : (BitVec.ofNat 32 cap).toNat = cap := by
    rw [BitVec.toNat_ofNat, Nat.mod_eq_of_lt (by omega)]
  rw [BitVec.toNat_sub_of_le (by rw [BitVec.le_def, hc]; omega), hc]

/-- Branches B and C are one: the LEN bytes left are encoded, and TERM after them (R144, R145). -/
theorem State.refillWith_of_len_le {s : State} (hcap : s.len.toNat ≤ s.par.cap) :
    s.refillWith s.refillBytes =
      { s with
        pmem := (s.pmem.encodeBytes s.par s.txoff s.refillBytes).write (s.txoff + 8 * s.len.toNat) wordTerm,
        len := 0#32, txoff := s.toggledTxoff, thrPending := false } := by
  by_cases hlen : s.len = 0#32
  · have hbytes : s.refillBytes = [] := by
      rw [← List.length_eq_zero_iff, State.length_refillBytes, State.refillCount_of_le_cap hcap, hlen]
      rfl
    rw [State.refillWith_of_len_zero _ hlen, hbytes, hlen]
    cases s
    cases hlen
    rfl
  · exact State.refillWith_of_le_cap _ hlen hcap

section
variable {F : FrameJob} {s : State} {n w : Nat} (hS : s.InSession F) (hF : s.Playing F n w)
include hS hF

/-- While bytes are left, POS counts those whose entries are written (R22, R151). -/
theorem State.Playing.pos_eq (hlen : s.len ≠ 0#32) : w = F.par.nMem + 8 * s.pos.toNat := by
  obtain ⟨hsum, -⟩ := hS.inv.cursorRest hS.ctl hlen
  have hpos : 0 < s.len.toNat := Nat.pos_of_ne_zero fun h => hlen (BitVec.eq_of_toNat_eq h)
  have htotal := hS.total_eq
  have hrest := hF.rest
  have hfront := hF.frontierLatch
  rw [hS.bufLen] at hsum
  omega

/-- A refill writes the entries that follow the frontier (R147). -/
theorem State.Playing.read_encode {d : Nat} (hd : d < 8 * s.refillCount) :
    (s.pmem.encodeBytes s.par s.txoff s.refillBytes).read (w + d) = F.entry (w + d) := by
  have hle := s.refillCount_le_len
  have hlen : s.len ≠ 0#32 := fun h => by
    rw [h, BitVec.toNat_ofNat, Nat.zero_mod] at hle
    omega
  have hpos := hF.pos_eq hS hlen
  obtain ⟨hsum, -⟩ := hS.inv.cursorRest hS.ctl hlen
  rw [hS.bufLen] at hsum
  have hk : d / 8 < s.refillCount := by omega
  have hj : d % 8 < 8 := Nat.mod_lt _ (by decide)
  have hbyte : F.bytes[s.pos.toNat + d / 8]? = some (s.sys.read (s.refillAddr + d / 8)) := by
    rw [← hS.bytes, State.getElem?_bufferBytes s F.base (by omega), State.refillAddr, hS.bufBase, Nat.add_assoc]
  have hentry := FrameJob.entry_bit hS.parWf hbyte hj
  have hread := State.read_encode_refillBytes hS.inv.sized hk hj
  have hmod := PMem.read_mod_add (s.pmem.encodeBytes s.par s.txoff s.refillBytes) w d
  rw [PMem.length_encodeBytes, hS.length_pmem, ← hF.txoff] at hmod
  rw [Nat.add_assoc, Nat.div_add_mod] at hread
  rw [show F.par.nMem + (8 * (s.pos.toNat + d / 8) + d % 8) = w + d by omega] at hentry
  rw [← hmod, hread, hentry, hS.par]

/-- The toggle moves TXOFF on by H (R146). -/
theorem State.Playing.toggledTxoff_eq : s.toggledTxoff = (w + F.par.half) % F.par.nMem := by
  obtain ⟨hhalf, hcap, hpos⟩ := Params.wf_half hS.parWf
  rw [← Nat.mod_add_mod, ← hF.txoff, State.toggledTxoff, hS.par]
  split
  case isTrue h0 =>
    rw [h0, Nat.zero_add, Nat.mod_eq_of_lt (by omega)]
  case isFalse h0 =>
    obtain h | h := hS.inv.txoffHalf
    · exact absurd h h0
    · rw [h, hS.par, ← Nat.two_mul, hhalf, Nat.mod_self]

variable (hpend : s.thrPending = true)
include hpend

/-- What a refill writes is at most H entries on from the frontier, and those to be played before it are others. -/
theorem State.Playing.mod_ne {m d : Nat} (hn : n < m) (hm : m < w) (hd : d ≤ F.par.half) :
    m % F.par.nMem ≠ (s.txoff + d) % F.par.nMem := by
  obtain ⟨hle, -⟩ := hF.behind hpend
  obtain ⟨hhalf, -, -⟩ := Params.wf_half hS.parWf
  rw [hF.txoff, Nat.mod_add_mod, show w + d = m + (w + d - m) by omega]
  exact mod_ne_mod_add m _ (by omega) (by omega)

/-- So after the refill's bytes are encoded, all entries to be played stand up to the last of them (R147). -/
theorem State.Playing.read_encode_upto {m : Nat} (hn : n < m) (hle : m ≤ F.total) (hm : m < w + 8 * s.refillCount) :
    (s.pmem.encodeBytes s.par s.txoff s.refillBytes).read m = F.entry m := by
  by_cases hw : m < w
  case pos =>
    obtain ⟨hfit, -⟩ := State.refillBytes_fit hS.inv.sized
    rw [State.length_refillBytes, hS.par] at hfit
    rw [State.read_encode_refillBytes_other hS.inv.sized fun k hk => by
      rw [hS.par]
      exact hF.mod_ne hS hpend hn hw (by omega)]
    exact hF.written m hn hle (.inl hw)
  case neg =>
    obtain ⟨d, rfl⟩ := Nat.exists_eq_add_of_le (Nat.not_lt.1 hw)
    exact hF.read_encode hS (by omega)

/-- Where at most CAP bytes are left, the terminator follows them (R144, R145). -/
theorem State.Playing.read_encode_term (hcap : s.len.toNat ≤ s.par.cap) {m : Nat} (hn : n < m) (hle : m ≤ F.total) :
    ((s.pmem.encodeBytes s.par s.txoff s.refillBytes).write (s.txoff + 8 * s.len.toNat) wordTerm).read m =
      F.entry m := by
  obtain ⟨hhalf, h8, -⟩ := Params.wf_half hS.parWf
  have hcount := State.refillCount_of_le_cap hcap
  have hrest := hF.rest
  rw [hS.par] at hcap
  rw [PMem.read_write (by simpa using hS.inv.pmem_pos), PMem.length_encodeBytes, hS.length_pmem]
  by_cases hlast : m = F.total ∧ w ≤ m
  case pos =>
    obtain ⟨rfl, hw⟩ := hlast
    rw [if_pos, FrameJob.entry_total]
    rw [hF.txoff, Nat.mod_add_mod, hrest, Nat.add_sub_cancel' hw]
  case neg =>
    rw [if_neg, hF.read_encode_upto hS hpend hn hle (by omega)]
    by_cases hw : m < w
    · exact hF.mod_ne hS hpend hn hw (by omega)
    · rw [hF.txoff, Nat.mod_add_mod, show w + 8 * s.len.toNat = m + (w + 8 * s.len.toNat - m) by omega]
      exact mod_ne_mod_add m _ (by omega) (by omega)

/-- What a refill has to write for the frame to go on with its frontier H further. -/
theorem State.Playing.refilled {m : PMem} {pos len : Word} (hrest : 8 * len.toNat = F.total - (w + F.par.half))
    (hwritten : ∀ i, n < i → i ≤ F.total → (i < w + F.par.half ∨ len = 0#32) → m.read i = F.entry i)
    (hnoEnd : len ≠ 0#32 → ∀ i, entryDur0 (m.read i) ≠ 0#15) :
    ({ s with pmem := m, pos := pos, len := len, txoff := s.toggledTxoff, thrPending := false } : State).Playing
      F n (w + F.par.half) := by
  obtain ⟨hhalf, hcap, hpos⟩ := Params.wf_half hS.parWf
  obtain ⟨hle, hlt⟩ := hF.behind hpend
  have hfront := hF.frontierLatch
  exact { hF with
    frontierHalf := Nat.dvd_add_self_right.2 hF.frontierHalf
    frontierLatch := by omega
    behind := nofun
    ahead := fun _ => by omega
    txoff := hF.toggledTxoff_eq hS
    rest := hrest
    written := fun i hn hi h => hwritten i hn hi (h.imp_right And.right)
    noEnd := fun h => hnoEnd (h.resolve_right (by omega)) }

/-- A refill moves the frontier on by H: in branch A over CAP bytes, in branches B and C over the rest and the
terminator (R143 to R145). -/
theorem State.Playing.refillWith : (s.refillWith s.refillBytes).Playing F n (w + F.par.half) := by
  obtain ⟨-, h8, -⟩ := Params.wf_half hS.parWf
  have hrest := hF.rest
  by_cases hcap : s.par.cap < s.len.toNat
  case pos =>
    have hcount := State.refillCount_of_cap_lt hcap
    have hlen := toNat_sub_ofNat_of_lt hcap
    have hne : s.len - BitVec.ofNat 32 s.par.cap ≠ 0#32 := fun h => by
      rw [h, BitVec.toNat_ofNat, Nat.zero_mod] at hlen
      omega
    rw [State.refillWith_of_cap_lt _ hcap]
    refine hF.refilled hS hpend (by rw [hlen, hS.par]; omega) (fun i hn hi h => ?_) fun _ => ?_
    · have hlt := h.resolve_right hne
      exact hF.read_encode_upto hS hpend hn hi (by rw [hcount, hS.par]; omega)
    · exact PMem.forall_read_writeMany hS.inv.pmem_pos (hF.noEnd (.inl fun h => by simp [h] at hcap)) _
        fun _ hw => (isPairEntry_of_mem_bytesEntries hS.inv.sized.1 hw).1
  case neg =>
    have hle : s.len.toNat ≤ s.par.cap := Nat.not_lt.1 hcap
    rw [State.refillWith_of_len_le hle]
    rw [hS.par] at hle
    refine hF.refilled hS hpend ?_ (fun i hn hi _ => hF.read_encode_term hS hpend (hS.par ▸ hle) hn hi) (absurd rfl)
    rw [BitVec.toNat_ofNat, Nat.zero_mod]
    omega

end

/-! ## The playback step of a session (R162) -/

/-- The half boundaries are the multiples of H (R166). -/
theorem mod_eq_zero_or_half_iff {H N : Nat} (hN : 2 * H = N) (m : Nat) : (m % N = 0 ∨ m % N = H) ↔ H ∣ m := by
  subst hN
  rw [← Nat.dvd_mod_iff (Nat.dvd_mul_left H 2)]
  refine ⟨fun h => ?_, fun ⟨q, hq⟩ => ?_⟩
  · rcases h with h | h <;> rw [h]
    exact Nat.dvd_zero H
  · rcases Nat.eq_zero_or_pos H with rfl | hpos
    · exact .inl (by rw [hq, Nat.zero_mul])
    · have hlt : H * q < H * 2 := by
        rw [← hq, Nat.mul_comm H 2]
        exact Nat.mod_lt m (by omega)
      have hq2 := Nat.lt_of_mul_lt_mul_left hlt
      obtain rfl | rfl : q = 0 ∨ q = 1 := by omega
      · exact .inl hq
      · exact .inr (by rw [hq, Nat.mul_one])

/-- Multiples of H less than N_MEM apart are H apart. -/
theorem eq_add_of_dvd {H a b : Nat} (ha : H ∣ a) (hb : H ∣ b) (hlt : a < b) (hlt2 : b < a + 2 * H) : b = a + H := by
  obtain ⟨q, hq⟩ := Nat.dvd_sub hb ha
  have hpos : 0 < q := Nat.pos_of_ne_zero fun h => by
    rw [h, Nat.mul_zero] at hq
    omega
  have hq2 : q < 2 := Nat.lt_of_mul_lt_mul_left (a := H) (by omega)
  obtain rfl : q = 1 := by omega
  omega

/-- The state after the latched entry is played and the next one is latched, before the checks (R162). -/
def State.advanced (s : State) : State :=
  s.played (entryLvl0 s.cur) (entryDur0 s.cur) (entryLvl1 s.cur) (entryDur1 s.cur)

section
variable {F : FrameJob} {s : State} {n w : Nat} (hF : s.Playing F n w)
include hF

theorem State.Playing.advanced_trace : s.advanced.trace = F.before ++ F.sent (n + 1) := by
  rw [FrameJob.sent_succ hF.inside, ← hF.cur, ← List.append_assoc, ← hF.trace]
  rfl

theorem State.Playing.advanced_elapsed : s.advanced.elapsed = unitsOf (F.sent (n + 1)) := by
  rw [FrameJob.sent_succ hF.inside, ← hF.cur, unitsOf_append, ← hF.elapsed]
  simp [State.advanced, State.played, unitsOf, entrySegments, Nat.add_assoc]

variable (hS : s.InSession F)
include hS

theorem State.Playing.advanced_rp : s.advanced.rp = (n + 1) % F.par.nMem := by
  simp [State.advanced, State.played, hF.rp, hS.par]

theorem State.Playing.advanced_cur : s.advanced.cur = s.pmem.read (n + 1) := by
  have hmod := PMem.read_mod s.pmem (n + 1)
  rw [hS.length_pmem, ← hF.advanced_rp hS] at hmod
  exact hmod

/-- As far as the pulse memory is written, the entry latched next is the frame's. -/
theorem State.Playing.advanced_entry (h : n + 1 < w ∨ (F.par.nMem < w ∧ s.len = 0#32)) :
    s.advanced.cur = F.entry (n + 1) := by
  rw [hF.advanced_cur hS]
  exact hF.written _ (Nat.lt_succ_self n) hF.inside h

/-- An END0 latched next is the terminator after the frame's last entry: before it stand the frame's pairs, and as long as
it is not written no END0 at all (R144, R145). -/
theorem State.Playing.total_of_end0 (h0 : entryDur0 s.advanced.cur = 0#15) : n + 1 = F.total := by
  by_contra hne
  have hin : n + 1 < F.total := by
    have := hF.inside
    omega
  by_cases hw : n + 1 < w ∨ (F.par.nMem < w ∧ s.len = 0#32)
  · rw [hF.advanced_entry hS hw] at h0
    exact (FrameJob.isPairEntry_entry hS.parWf hin).1 h0
  · rw [hF.advanced_cur hS] at h0
    refine hF.noEnd ?_ _ h0
    by_cases hlen : s.len = 0#32
    · exact .inr (Nat.le_antisymm (Nat.not_lt.1 fun h => hw (.inr ⟨h, hlen⟩)) hF.frontierLatch)
    · exact .inl hlen

/-- The latched terminator ends playback with the frame sent whole (R163, R167). -/
theorem State.Playing.sent_of_end0 (h0 : entryDur0 s.advanced.cur = 0#15) : s.advanced.afterLatch.Sent F := by
  have hlast := hF.total_of_end0 hS h0
  have htrace := hF.advanced_trace
  have helapsed := hF.advanced_elapsed
  rw [hlast, FrameJob.sent_total] at htrace helapsed
  rw [State.afterLatch_of_end0 h0]
  exact ⟨rfl, htrace, helapsed⟩

variable (hlive : s.live = true)
include hlive

/-- A frame under way plays, with the refill handler hooked. -/
theorem State.Playing.running : s.pbRun = true ∧ s.rflEn = true := by
  obtain ⟨hen, hrun⟩ := hS.inv.waitRun hS.ctl (s.live_iff.1 hlive).1
  rw [hF.notDone] at hrun
  exact ⟨hrun, hen⟩

/-- THR is raised where the next entry's number is a multiple of H (R166). -/
theorem State.Playing.advanced_raisesThr_iff : s.advanced.raisesThr ↔ F.par.half ∣ n + 1 := by
  have hpar : s.advanced.par = F.par := hS.par
  have hen : s.advanced.rflEn = true := (hF.running hS hlive).2
  rw [State.raisesThr, hF.advanced_rp hS, hpar, hen]
  simpa using mod_eq_zero_or_half_iff (Params.wf_half hS.parWf).1 (n + 1)

/-- The playback step of a frame under way. -/
theorem State.Playing.take_play_eq : s.take .play = .next s.advanced.afterLatch := by
  obtain ⟨h0, h1⟩ := hF.cur ▸ FrameJob.isPairEntry_entry hS.parWf hF.inside
  obtain ⟨hrun, -⟩ := hF.running hS hlive
  rcases s.take_play_cases with ⟨hp, -⟩ | ⟨-, h0', -⟩ | ⟨-, -, h1', -⟩ | ⟨-, -, -, e⟩
  · simp [State.canPlay, hlive, hrun] at hp
  · exact absurd h0' h0
  · exact absurd h1' h1
  · rw [e, State.emit_emit_latchNext]
    rfl

section
variable (h0 : entryDur0 s.advanced.cur ≠ 0#15) (hok : s.advanced.afterLatch.faulted = false)
include h0 hok

/-- Without a fault the next entry stands before the frontier: at the frontier the event of the half before is still
pending, so another is Underrun (R166, R204). -/
theorem State.Playing.next_lt_frontier : n + 1 < w := by
  obtain ⟨-, h8, hcap⟩ := Params.wf_half hS.parWf
  have hthr := hF.advanced_raisesThr_iff hS hlive
  have hf : s.advanced.faulted = false := (s.live_iff.1 hlive).1
  cases hpend : s.thrPending with
  | false =>
    obtain ⟨-, hlt⟩ := hF.ahead hpend
    omega
  | true =>
    obtain ⟨-, hlt⟩ := hF.behind hpend
    refine Nat.lt_of_le_of_ne hlt fun hw => ?_
    have hraise : s.advanced.raisesThr := hthr.2 (by rw [hw]; exact hF.frontierHalf)
    rcases State.afterLatch_of_not_faulted h0 hf hok with ⟨-, hno, -⟩ | ⟨hno, -⟩
    · exact absurd hpend (by rw [show s.thrPending = false from hno]; decide)
    · exact hno hraise

/-- And it is one of the frame's own: after the last comes the terminator. -/
theorem State.Playing.next_inside : n + 1 < F.total := by
  refine Nat.lt_of_le_of_ne hF.inside fun hlast => h0 ?_
  rw [hF.advanced_entry hS (.inl (hF.next_lt_frontier hS hlive h0 hok)), hlast, FrameJob.entry_total]
  decide

/-- Playback that goes on plays the frame's next entry, with or without an event made pending. -/
theorem State.Playing.next {pend : Bool} (hbehind : pend = true → w ≤ n + 1 + F.par.half)
    (hahead : pend = false → n + 1 + F.par.half < w) :
    ({ s.advanced with thrPending := pend } : State).Playing F (n + 1) w := by
  obtain ⟨hhalf, -, -⟩ := Params.wf_half hS.parWf
  have hlt := hF.next_lt_frontier hS hlive h0 hok
  have hreach : w ≤ n + F.par.nMem := by
    cases hpend : s.thrPending with
    | true => have := (hF.behind hpend).1; omega
    | false => exact (hF.ahead hpend).1
  exact {
    notDone := hF.notDone
    inside := hF.next_inside hS hlive h0 hok
    trace := hF.advanced_trace
    elapsed := hF.advanced_elapsed
    rp := hF.advanced_rp hS
    cur := hF.advanced_entry hS (.inl hlt)
    frontierHalf := hF.frontierHalf
    frontierLatch := hF.frontierLatch
    behind := fun h => ⟨hbehind h, hlt⟩
    ahead := fun h => ⟨by omega, hahead h⟩
    txoff := hF.txoff
    rest := hF.rest
    written := fun m hm => hF.written m (by omega)
    noEnd := hF.noEnd }

/-- So after a playback step without a fault that does not end playback the frame is under way, one entry further. -/
theorem State.Playing.afterLatch : s.advanced.afterLatch.Playing F (n + 1) w := by
  obtain ⟨hhalf, -, -⟩ := Params.wf_half hS.parWf
  have hthr := hF.advanced_raisesThr_iff hS hlive
  have hf : s.advanced.faulted = false := (s.live_iff.1 hlive).1
  rcases State.afterLatch_of_not_faulted h0 hf hok with ⟨hraise, hno, e⟩ | ⟨hraise, e⟩ <;> rw [e]
  · obtain ⟨hle, hlt⟩ := hF.ahead hno
    have hw := eq_add_of_dvd (hthr.1 hraise) hF.frontierHalf (by omega) (by omega)
    exact hF.next hS hlive h0 hok (fun _ => by omega) nofun
  · refine hF.next hS hlive h0 hok (pend := s.thrPending) (fun h => ?_) (fun h => ?_)
    · have := (hF.behind h).1
      omega
    · obtain ⟨-, hlt⟩ := hF.ahead h
      refine Nat.lt_of_le_of_ne (by omega) fun hw => hraise (hthr.2 ?_)
      rw [← Nat.dvd_add_self_right, hw]
      exact hF.frontierHalf

end

end

/-! ## The steps of a schedule -/

theorem keepsFrame_own {base len : Word} {c : Choice} (hc : keepsFrame base len c = true) : c.own = true :=
  ((Bool.and_eq_true _ _).mp hc).1

/-- From `s` to `t` neither the session's registers, nor CTL_STATE, nor system memory change (R33, R35, R42). -/
structure State.SameSession (s t : State) : Prop where
  par : t.par = s.par := by rfl
  ctl : t.ctl = s.ctl := by rfl
  bufBase : t.bufBase = s.bufBase := by rfl
  bufLen : t.bufLen = s.bufLen := by rfl
  sys : t.sys = s.sys := by rfl

theorem State.SameSession.trans {s t u : State} (h : s.SameSession t) (h' : t.SameSession u) : s.SameSession u :=
  ⟨h'.par.trans h.par, h'.ctl.trans h.ctl, h'.bufBase.trans h.bufBase, h'.bufLen.trans h.bufLen, h'.sys.trans h.sys⟩

theorem State.afterLatch_sameSession (s : State) : s.SameSession s.afterLatch := by
  rcases s.afterLatch_results with ⟨-, e⟩ | ⟨-, e | e | ⟨k, info, e⟩⟩ <;> rw [e] <;> exact {}

theorem State.refillWith_sameSession (s : State) (bs : List Byte) : s.SameSession (s.refillWith bs) := by
  unfold State.refillWith
  split
  · exact {}
  · split <;> exact {}

section
variable {F : FrameJob} {s t : State}

theorem State.InSession.of_sameSession (hS : s.InSession F) (h : s.SameSession t) (ht : t.Inv) : t.InSession F where
  inv := ht
  par := h.par.trans hS.par
  ctl := h.ctl.trans hS.ctl
  bufBase := h.bufBase.trans hS.bufBase
  bufLen := h.bufLen.trans hS.bufLen
  bytes := (State.bufferBytes_congr h.sys _ _).trans hS.bytes

/-- A frame that plays is not sent yet: it is under way. -/
theorem State.Sends.playing (hF : s.Sends F) (hrun : s.pbRun = true) : ∃ n w, s.Playing F n w := by
  obtain ⟨hS, hsent | hplaying⟩ := hF
  · have hd := (hS.inv.runWait hrun).2.2
    rw [hsent.done] at hd
    cases hd
  · exact hplaying

theorem State.Sends.play (hF : s.Sends F) (hp : s.canPlay = true) (ht : s.take .play = .next t)
    (hlive : t.live = true) : t.Sends F := by
  obtain ⟨hs, hrun⟩ := s.canPlay_iff.1 hp
  obtain ⟨n, w, hP⟩ := hF.playing hrun
  have hS := hF.1
  have hinv := hS.inv.take_play ht
  obtain rfl := Host.Outcome.next.inj ((hP.take_play_eq hS hs).symm.trans ht)
  have hsame : s.SameSession s.advanced.afterLatch := .trans (t := s.advanced) {} s.advanced.afterLatch_sameSession
  refine ⟨hS.of_sameSession hsame hinv, ?_⟩
  by_cases h0 : entryDur0 s.advanced.cur = 0#15
  · exact .inl (hP.sent_of_end0 hS h0)
  · exact .inr ⟨n + 1, w, hP.afterLatch hS hs h0 ((State.live_iff _).1 hlive).1⟩

theorem State.Sends.refill (hF : s.Sends F) (hr : s.canRefill = true) : (s.refillWith s.refillBytes).Sends F := by
  obtain ⟨-, hpend, -⟩ := s.canRefill_iff.1 hr
  have hS := hF.1
  obtain ⟨n, w, hP⟩ := hF.playing (hS.inv.waiting_of_thrPending hpend).1
  exact ⟨hS.of_sameSession (s.refillWith_sameSession _) (hS.inv.refillWith hr _),
    .inr ⟨n, w + F.par.half, hP.refillWith hS hpend⟩⟩

/-- A host's step or a hold leaves the frame as it is. -/
theorem State.Sends.of_hostFrame (hF : s.Sends F) {h : Nat} (hf : State.HostFrame h s t) (ht : t.Inv)
    (hb : t.bufferBytes F.base F.len = s.bufferBytes F.base F.len) : t.Sends F := by
  obtain ⟨hS, hsent⟩ := hF
  exact ⟨hS.of_hostFrame hf ht hb,
    hsent.imp (fun hD => hD.of_hostFrame hf) fun ⟨n, w, hP⟩ => ⟨n, w, hP.of_hostFrame hf hS.inv⟩⟩

/-- Every choice allowed while the frame is in flight keeps it being sent, or sent, unless it faults or is refused. -/
theorem State.Sends.take (hF : s.Sends F) {c : Choice} (hc : keepsFrame F.base F.len c = true)
    (ht : s.take c = .next t) (hlive : t.live = true) : t.Sends F := by
  have hS := hF.1
  rcases hS.inv.take_keepsFrame_cases hS.ctl hc ht with ⟨h, hf, hb⟩ | ⟨hp, hplay⟩ | ⟨hr, rfl⟩
  · exact hF.of_hostFrame hf (hS.inv.take (keepsFrame_own hc) ht) hb
  · exact hF.play hp hplay hlive
  · have hport : ({ s with issuer := .thr } : State).Sends F :=
      hF.of_hostFrame (h := 0) {} (hS.inv.setIssuer .thr) rfl
    exact hport.refill hr

/-- So does every such step, from a machine that was live and so had the frame being sent (R14). -/
theorem State.Sends.of_step (hF : s.live = true → s.Sends F) {c : Choice} {rest : List Choice} (hag : s.agenda = c :: rest)
    (hc : keepsFrame F.base F.len c = true) (ht : step s = .next t) (hlive : t.live = true) : t.Sends F := by
  rw [step_of_agenda_cons hag] at ht
  have hreset : c ≠ .reset := by
    rintro rfl
    cases hc
  have hs : s.live = true := (State.live_of_take (keepsFrame_own hc) hreset ht hlive :)
  have hinv : ({ s with agenda := rest } : State).Inv :=
    (hF hs).1.inv.setAgenda fun d hd => (hF hs).1.inv.agendaOwn d (by simp [hag, hd])
  exact ((hF hs).of_hostFrame (h := 0) {} hinv rfl).take hc ht hlive

end

/-! ## The start of a frame (R103) -/

/-- The engines as acceptance leaves them: the latch block is written, its first entry latched, nothing played. -/
structure State.Started (F : FrameJob) (s : State) : Prop where
  done : s.done = false
  trace : s.trace = F.before
  elapsed : s.elapsed = 0
  rp : s.rp = 0
  cur : s.cur = latchEntry F.par
  thrPending : s.thrPending = false
  txoff : s.txoff = 0
  len : s.len = F.len
  pmem : ∀ i, s.pmem.read i = latchEntry F.par

/-- Then the frame is under way, its frontier after the latch block. -/
theorem State.Started.playing {F : FrameJob} {s : State} (hA : s.Started F) (hS : s.InSession F) :
    s.Playing F 0 F.par.nMem := by
  have hp := hS.parWf
  obtain ⟨-, h16, -⟩ := Params.wf_geometry hp
  obtain ⟨hhalf, -, -⟩ := Params.wf_half hp
  have htotal := hS.total_eq
  exact {
    notDone := hA.done
    inside := by omega
    trace := by rw [hA.trace, FrameJob.sent_zero, List.append_nil]
    elapsed := hA.elapsed
    rp := by rw [hA.rp, Nat.zero_mod]
    cur := by rw [hA.cur, FrameJob.entry_latch hp (by omega)]
    frontierHalf := ⟨2, by omega⟩
    frontierLatch := le_rfl
    behind := fun h => by simp [hA.thrPending] at h
    ahead := fun _ => by omega
    txoff := by rw [hA.txoff, Nat.mod_self]
    rest := by rw [hA.len]; omega
    written := fun i _ _ hi => by
      rw [hA.pmem, FrameJob.entry_latch hp (hi.resolve_right fun h => Nat.lt_irrefl _ h.1)]
    noEnd := fun _ i => by rw [hA.pmem]; exact entryDur0_latchEntry hp }

theorem State.Sends.of_started {F : FrameJob} {s : State} (hS : s.InSession F) (hA : s.Started F) : s.Sends F :=
  ⟨hS, .inr ⟨0, F.par.nMem, hA.playing hS⟩⟩

/-- The frame of a waiting SHOW: its bytes are those of the buffer, its output comes after what was output before. -/
def State.frameJob (s : State) (base len : Word) : FrameJob where
  par := s.par
  base := base
  len := len
  bytes := s.bufferBytes base len
  before := s.trace

/-- The step that accepts a SHOW starts its frame (R103). -/
theorem State.Sends.of_accepted {s t : State} {h : Nat} {base len : Word} {rest : List Choice} (hs : s.Inv)
    (hag : s.agenda = .accept h :: rest) (hlive : s.live = true) (hctl : s.ctl = .idle) (hlock : s.lock = .free)
    (hreq : s.hstateAt h = some (.showReq base len)) (hcfg : s.cfgValid = true)
    (hbuf : base.toNat + len.toNat ≤ s.par.memSize) (ht : step s = .next t) : t.Sends (s.frameJob base len) := by
  have hinv := everyStepKeepsTheInvariant s t hs ht
  obtain ⟨_, -, -, -, hok⟩ := acceptanceStep s h base len rest hs hag hlive hctl hlock hreq
  obtain ⟨m, -, hread, hstep⟩ := hok hcfg hbuf
  obtain rfl := Host.Outcome.next.inj (hstep.symm.trans ht)
  exact State.Sends.of_started
    { inv := hinv, par := rfl, ctl := rfl, bufBase := rfl, bufLen := rfl, bytes := rfl }
    { done := rfl, trace := rfl, elapsed := rfl, rp := rfl, cur := rfl, thrPending := rfl, txoff := rfl, len := rfl,
      pmem := hread }

/-! ## The obligation -/

/-- Settles O47: the frame that acceptance starts is kept by every step of the schedule from a machine that stays live;
with DONE it is sent whole. -/
theorem frameWaveform : Obligations.FrameWaveform := by
  intro s t h base len es rest hs hlive hctl hlock hreq hcfg hbuf hag hes hrun hlive' hdone
  obtain ⟨u, hu, hlater⟩ := exists_step_of_run hrun
  have hF := State.Sends.of_accepted hs hag hlive hctl hlock hreq hcfg hbuf hu
  have hagu : u.agenda = es ++ rest :=
    State.take_agenda (s := { s with agenda := es ++ rest }) (c := .accept h) rfl
      ((step_of_agenda_cons hag).symm.trans hu)
  have hend := run_keeps (P := fun v => v.live = true → v.Sends (s.frameJob base len))
    (fun c hc => keepsFrame_own (hes c hc))
    (fun c hc _ _ _ hagv hv hstep => State.Sends.of_step hv hagv (hes c hc) hstep)
    hagu (fun _ => hF) hlater
  obtain ⟨-, hsent | ⟨n, w, hP⟩⟩ := hend hlive'
  · exact ⟨hsent.trace, hsent.elapsed⟩
  · rw [hP.notDone] at hdone
    cases hdone

end Sys2Proof.Machine
end

section
/-! SUPPORT. R222, R243: a frame whose every event is served before the next playback step takes no fault while the time
limit allows its length, so that as many rounds of both as it has entries send it. The obligation about it. -/

namespace Sys2Proof.Machine

/-! ## Runs, one step after another -/

/-- A run that begins with a step that answers goes on from its answer. -/
theorem run_succ_of_step {s t : State} (h : step s = .next t) (k : Nat) :
    Host.Core.run Sys2Proof.core (k + 1) s = Host.Core.run Sys2Proof.core k t := by
  have hcore : Sys2Proof.core.step s = .next t := h
  simp only [Host.Core.run, hcore]

/-- A run that answers may go on. -/
theorem run_add_of_run {j : Nat} {s t : State} (h : Host.Core.run Sys2Proof.core j s = .next t) (k : Nat) :
    Host.Core.run Sys2Proof.core (j + k) s = Host.Core.run Sys2Proof.core k t := by
  induction j generalizing s with
  | zero =>
    obtain rfl : s = t := Host.Outcome.next.inj h
    rw [Nat.zero_add]
  | succ j ih =>
    obtain ⟨u, hu, hlater⟩ := exists_step_of_run h
    rw [Nat.succ_add, run_succ_of_step hu, ih hlater]

/-- The step takes what the agenda's first choice answers, and the others are left (R13). -/
theorem step_of_take {s t : State} {c : Choice} {rest : List Choice} (hag : s.agenda = c :: rest) (hc : c.own = true)
    (ht : State.take { s with agenda := rest } c = .next t) : step s = .next t ∧ t.agenda = rest :=
  ⟨(step_of_agenda_cons hag).trans ht, State.take_agenda hc ht⟩

/-! ## A frame within the time limit -/

/-- What is sent of a frame lasts no longer than the frame. -/
theorem FrameJob.unitsOf_sent_le (F : FrameJob) (n : Nat) : unitsOf (F.sent n) ≤ unitsOf (frame F.par F.bytes) := by
  have hsplit : F.sent F.total = F.sent n ++ (F.entries.drop n).flatMap entrySegments := by
    rw [FrameJob.sent, FrameJob.sent, FrameJob.total, List.take_length, ← List.flatMap_append, List.take_append_drop]
  rw [← F.sent_total, hsplit, unitsOf_append]
  exact Nat.le_add_right _ _

/-- The time limit is at least the frame's length (R111, R181). -/
def FrameJob.Timely (F : FrameJob) : Prop := unitsOf (frame F.par F.bytes) ≤ F.par.waitTimeout

/-- The session of `F` in a live machine whose lock host `h` holds (R34). -/
structure State.Served (F : FrameJob) (h : Nat) (s : State) : Prop where
  session : s.InSession F
  live : s.live = true
  lock : s.lock = .held h

section
variable {F : FrameJob} {h n w : Nat} {s : State}

/-- Taking a choice off the agenda leaves the session as it is. -/
theorem State.Served.tail (hv : s.Served F h) {c : Choice} {rest : List Choice} (hag : s.agenda = c :: rest) :
    ({ s with agenda := rest } : State).Served F h := by
  have hinv : ({ s with agenda := rest } : State).Inv :=
    hv.session.inv.setAgenda fun d hd => hv.session.inv.agendaOwn d (by simp [hag, hd])
  exact ⟨hv.session.of_hostFrame (h := h) {} hinv rfl, hv.live, hv.lock⟩

/-- A refill clears the event it serves and takes no fault (R150). -/
theorem State.refillWith_thrPending_live (s : State) (bs : List Byte) :
    (s.refillWith bs).thrPending = false ∧ (s.refillWith bs).live = s.live := by
  unfold State.refillWith
  split
  · exact ⟨rfl, rfl⟩
  · split <;> exact ⟨rfl, rfl⟩

section
variable (hv : s.Served F h) (hP : s.Playing F n w)
include hv hP

/-- Where an event is pending the refill choice serves it; where none is, it holds (R140, R142). -/
theorem State.Playing.take_refill_serves :
    ∃ t w', s.take .refill = .next t ∧ t.Served F h ∧ t.Playing F n w' ∧ t.thrPending = false := by
  have hinv := hv.session.inv.setIssuer .thr
  have hS : ({ s with issuer := .thr } : State).InSession F := hv.session.of_hostFrame (h := h) {} hinv rfl
  have hP' : ({ s with issuer := .thr } : State).Playing F n w := hP.of_hostFrame (h := h) {} hv.session.inv
  cases hpend : s.thrPending with
  | false =>
    have hr : ({ s with issuer := .thr } : State).canRefill = false := by simp [State.canRefill, hpend]
    exact ⟨_, w, exec_refill_of_not_canRefill rfl hr, ⟨hS, hv.live, hv.lock⟩, hP', hpend⟩
  | true =>
    have hr : ({ s with issuer := .thr } : State).canRefill = true :=
      (State.canRefill_iff _).2 ⟨hv.live, hpend, (hP.running hv.session hv.live).2⟩
    obtain ⟨hthr, hlive⟩ := State.refillWith_thrPending_live { s with issuer := .thr }
      (State.refillBytes { s with issuer := .thr })
    exact ⟨_, w + F.par.half, exec_refill_of_canRefill rfl hr (hinv.refill_inside hr),
      { session := hS.of_sameSession (State.refillWith_sameSession _ _) (hinv.refillWith hr _)
        live := hlive.trans hv.live
        lock := (State.refillWith_sameLockAndSys _ _).lock.trans hv.lock },
      hP'.refillWith hS hpend, hthr⟩

variable (hthr : s.thrPending = false) (htime : F.Timely)
include hthr htime

/-- With no event pending and time left, the playback step takes no fault (R111, R166). -/
theorem State.Playing.afterLatch_live : s.advanced.afterLatch.live = true := by
  have hf : s.advanced.faulted = false := (s.live_iff.1 hv.live).1
  have hover : ¬s.advanced.overTime := by
    rintro ⟨-, -, hlt⟩
    rw [hP.advanced_elapsed, show s.advanced.par = F.par from hv.session.par] at hlt
    exact absurd hlt (Nat.not_lt.2 ((F.unitsOf_sent_le _).trans htime))
  by_cases h0 : entryDur0 s.advanced.cur = 0#15
  · rw [State.afterLatch_of_end0 h0]
    exact hv.live
  · by_cases hr : s.advanced.raisesThr
    · rw [State.afterLatch_of_raisesThr h0 hf hr hthr,
        State.timeoutCheck_of_not_overTime (u := { s.advanced with thrPending := true }) hover]
      exact hv.live
    · rw [State.afterLatch_of_not_raisesThr h0 hf hr, State.timeoutCheck_of_not_overTime hover]
      exact hv.live

/-- So it sends one entry more: the frame goes on, or it was the last one (R162, R167). -/
theorem State.Playing.take_play_advances :
    ∃ t, s.take .play = .next t ∧ t.Served F h ∧ (n + 1 = F.total ∧ t.Sent F ∨ t.Playing F (n + 1) w) := by
  have hplay := hP.take_play_eq hv.session hv.live
  have hlive := hP.afterLatch_live hv hthr htime
  have hsame : s.SameSession s.advanced.afterLatch := .trans (t := s.advanced) {} s.advanced.afterLatch_sameSession
  refine ⟨_, hplay, ⟨hv.session.of_sameSession hsame (hv.session.inv.take_play hplay), hlive,
    (State.take_play_sameLockAndSys hplay).lock.trans hv.lock⟩, ?_⟩
  by_cases h0 : entryDur0 s.advanced.cur = 0#15
  · exact .inl ⟨hP.total_of_end0 hv.session h0, hP.sent_of_end0 hv.session h0⟩
  · exact .inr (hP.afterLatch hv.session hv.live h0 ((State.live_iff _).1 hlive).1)

end

/-! ## A schedule that sends every frame -/

/-- `k` rounds of a refill choice, which serves the event if one is pending, and a playback step. -/
def serveAndPlay : Nat → List Choice
  | 0 => []
  | k + 1 => .refill :: .play :: serveAndPlay k

theorem keepsFrame_of_mem_serveAndPlay {base len : Word} {k : Nat} {c : Choice} (hc : c ∈ serveAndPlay k) :
    keepsFrame base len c = true := by
  induction k with
  | zero => cases hc
  | succ k ih =>
    rcases List.mem_cons.1 hc with rfl | hc
    · rfl
    · rcases List.mem_cons.1 hc with rfl | hc
      · rfl
      · exact ih hc

/-- Every choice from a SHOW's acceptance to its completion is the spec's own. -/
theorem own_of_mem_accept_serveAndPlay_complete {k : Nat} :
    ∀ c ∈ Choice.accept h :: (serveAndPlay k ++ [.complete]), c.own = true := by
  intro c hc
  rcases List.mem_cons.1 hc with rfl | hc
  · rfl
  · rcases List.mem_append.1 hc with hc | hc
    · exact keepsFrame_own (base := 0#32) (len := 0#32) (keepsFrame_of_mem_serveAndPlay hc)
    · obtain rfl := List.mem_singleton.1 hc
      rfl

/-- A round sends one entry more. -/
theorem State.Playing.run_refill_play (hv : s.Served F h) (hP : s.Playing F n w) (htime : F.Timely) {rest : List Choice}
    (hag : s.agenda = .refill :: .play :: rest) :
    ∃ t w', (∀ k, Host.Core.run Sys2Proof.core (k + 2) s = Host.Core.run Sys2Proof.core k t) ∧ t.agenda = rest ∧
      t.Served F h ∧ (n + 1 = F.total ∧ t.Sent F ∨ t.Playing F (n + 1) w') := by
  have hP' : ({ s with agenda := .play :: rest } : State).Playing F n w := hP.of_hostFrame (h := h) {} hv.session.inv
  obtain ⟨u, w', hrefill, hvu, hPu, hthr⟩ := hP'.take_refill_serves (hv.tail hag)
  obtain ⟨hu, hagu⟩ := step_of_take hag rfl hrefill
  have hPu' : ({ u with agenda := rest } : State).Playing F n w' := hPu.of_hostFrame (h := h) {} hvu.session.inv
  obtain ⟨t, hplay, hvt, hgo⟩ := hPu'.take_play_advances (hvu.tail hagu) hthr htime
  obtain ⟨ht, hagt⟩ := step_of_take hagu rfl hplay
  exact ⟨t, w', fun k => by rw [run_succ_of_step hu, run_succ_of_step ht], hagt, hvt, hgo⟩

/-- As many rounds as entries are left send the frame. -/
theorem State.Playing.run_serveAndPlay (htime : F.Timely) {rest : List Choice} {k : Nat} (hk : n + k = F.total)
    (hv : s.Served F h) (hP : s.Playing F n w) (hag : s.agenda = serveAndPlay k ++ rest) :
    ∃ t, Host.Core.run Sys2Proof.core (serveAndPlay k).length s = .next t ∧ t.agenda = rest ∧ t.Served F h ∧
      t.Sent F := by
  induction k generalizing n w s with
  | zero => exact absurd hP.inside (by omega)
  | succ k ih =>
    obtain ⟨u, w', hrun, hagu, hvu, ⟨hlast, hsent⟩ | hPu⟩ := hP.run_refill_play hv htime hag
    · obtain rfl : k = 0 := by omega
      exact ⟨u, hrun 0, hagu, hvu, hsent⟩
    · obtain ⟨t, hlater, hend⟩ := ih (by omega) hvu hPu hagu
      exact ⟨t, (hrun _).trans hlater, hend⟩

/-! ## From a waiting SHOW to its return -/

/-- Acceptance starts the frame for its host (R103). -/
theorem State.Inv.accept_starts (hs : s.Inv) {base len : Word} {rest : List Choice} (hag : s.agenda = .accept h :: rest)
    (hlive : s.live = true) (hctl : s.ctl = .idle) (hlock : s.lock = .free)
    (hreq : s.hstateAt h = some (.showReq base len)) (hcfg : s.cfgValid = true)
    (hbuf : base.toNat + len.toNat ≤ s.par.memSize) :
    ∃ t, step s = .next t ∧ t.agenda = rest ∧ t.Served (s.frameJob base len) h ∧
      t.Playing (s.frameJob base len) 0 s.par.nMem := by
  obtain ⟨_, -, -, -, hok⟩ := acceptanceStep s h base len rest hs hag hlive hctl hlock hreq
  obtain ⟨m, -, hread, hstep⟩ := hok hcfg hbuf
  have hS : State.InSession (s.frameJob base len) _ :=
    { inv := everyStepKeepsTheInvariant _ _ hs hstep
      par := rfl, ctl := rfl, bufBase := rfl, bufLen := rfl, bytes := rfl }
  refine ⟨_, hstep, rfl, ⟨hS, hlive, rfl⟩, State.Started.playing ?_ hS⟩
  exact { done := rfl, trace := rfl, elapsed := rfl, rp := rfl, cur := rfl, thrPending := rfl, txoff := rfl, len := rfl,
          pmem := hread }

/-- Completion of a frame that is sent whole frees the lock and returns the SHOW of its owner (R105). -/
theorem State.Sent.complete_returns (hv : s.Served F h) (hsent : s.Sent F) :
    s.complete.live = true ∧ s.complete.lock = .free ∧ s.complete.ctl = .idle ∧ s.complete.hstateAt h = some .idle ∧
    s.complete.trace = F.before ++ frame F.par F.bytes := by
  have howner := (hv.session.inv.lockOwner h).1 hv.lock
  have hidle : (s.setHstate h .idle).hstateAt h = some .idle := by
    rw [State.hstateAt_setHstate, if_pos rfl, howner, Option.map_some]
  rw [State.complete_of_held hv.live hv.session.ctl hsent.done hv.lock]
  exact ⟨hv.live, rfl, rfl, hidle, hsent.trace⟩

end

/-! ## The obligation -/

/-- Settles O48: the schedule serves every event at once, with a round for each entry of the frame. -/
theorem everyFrameCanComplete : Obligations.EveryFrameCanComplete := by
  intro s h base len hs hlive hctl hlock hreq hcfg hbuf htime
  obtain ⟨u, hu, hagu, hvu, hPu⟩ := (hs.setAgenda own_of_mem_accept_serveAndPlay_complete).accept_starts (h := h) rfl
    hlive hctl hlock hreq hcfg hbuf
  obtain ⟨v, hv, hagv, hvv, hsent⟩ :=
    hPu.run_serveAndPlay (F := s.frameJob base len) htime (Nat.zero_add _) hvu hagu
  have hsent' : ({ v with agenda := [] } : State).Sent (s.frameJob base len) := hsent.of_hostFrame (h := h) {}
  obtain ⟨hdone, -⟩ := step_of_take hagv rfl rfl
  refine ⟨serveAndPlay (s.frameJob base len).total, _, fun _ => keepsFrame_of_mem_serveAndPlay, ?_,
    hsent'.complete_returns (hvv.tail hagv)⟩
  rw [run_succ_of_step hu, run_add_of_run hv, run_succ_of_step hdone]
  rfl

end Sys2Proof.Machine
end

section
/-! SUPPORT. A machine that has faulted or was refused holds (R14, R207), and how a machine comes to fault: by
`raise Fault` in a step that till then left PMEM, the cursor and CTL_STATE alone (R200, R206). The obligations about
both. -/

namespace Sys2Proof.Machine

/-! ## No agent has a step (R14, R206) -/

section
variable {s : State} (hlive : s.live = false)
include hlive

theorem State.canIssue_of_not_live : s.canIssue = false :=
  Bool.eq_false_iff.2 fun h => by simp [(s.canIssue_iff.1 h).1] at hlive

/-- No transaction has an effect, whoever stands on the port. -/
theorem exec_txn_of_not_live {i : Instr} (hl : i.lang = .txn) : exec i s = .next s := by
  have hcan := State.canIssue_of_not_live hlive
  cases hthr : s.byThr with
  | false => exact exec_of_not_canIssue hl hthr hcan
  | true =>
    cases i with
    | end0 | end1 | pair | bit0 | bit1 | latch | term => cases hl
    | refill => exact exec_refill_of_not_canRefill (of_decide_eq_true hthr) (by simp [State.canRefill, hlive])
    | _ => exact congrArg _ (State.transact_hold hcan _ _)

/-- Nor have words that are no transaction. -/
theorem State.rejectWords_of_not_live : s.rejectWords = s :=
  State.transact_hold (State.canIssue_of_not_live hlive) _ _

/-- Every choice but reset holds: it changes no more than who stands on the port, and with which draw. -/
theorem State.take_of_not_live {c : Choice} (hreset : c ≠ .reset) :
    ∃ who ok, s.take c = .next { s with issuer := who, installOk := ok } := by
  cases c with
  | issue who words ok =>
    refine ⟨who, ok, ?_⟩
    simp only [State.take, State.issue]
    split
    case h_1 i hdec =>
      exact exec_txn_of_not_live (s := { s with issuer := who, installOk := ok }) hlive (decodeTxn_lang hdec)
    case h_2 | h_3 =>
      exact congrArg _ (State.rejectWords_of_not_live (s := { s with issuer := who, installOk := ok }) hlive)
  | memWrite h a b => exact ⟨s.issuer, s.installOk, if_neg (by simp [hlive])⟩
  | accept h => exact ⟨s.issuer, s.installOk, congrArg _ (if_neg (by simp [hlive]))⟩
  | complete => exact ⟨s.issuer, s.installOk, congrArg _ (if_neg (by simp [hlive]))⟩
  | refill => exact ⟨.thr, s.installOk, exec_txn_of_not_live (i := .refill) (s := { s with issuer := .thr }) hlive rfl⟩
  | play => exact ⟨s.issuer, s.installOk, State.take_play_of_not_canPlay (by simp [State.canPlay, hlive])⟩
  | reset => exact absurd rfl hreset

end

/-! ## Fault entry (R206) -/

/-- What of the block a step that faults has not changed: PMEM, the cursor and CTL_STATE; TRACE may have grown. -/
structure State.FaultFrame (s t : State) : Prop where
  pmem : t.pmem = s.pmem := by rfl
  pos : t.pos = s.pos := by rfl
  len : t.len = s.len := by rfl
  txoff : t.txoff = s.txoff := by rfl
  ctl : t.ctl = s.ctl := by rfl
  trace : s.trace <+: t.trace := by exact ⟨[], List.append_nil _⟩

/-- From `s` a fault of the table is raised (R200). -/
def State.FaultsTo (s t : State) : Prop := ∃ u k info, s.FaultFrame u ∧ t = u.raiseFault k info

/-- So it does from any state from which only what a fault need not keep has changed before. -/
theorem State.FaultsTo.after {s p t : State} (h : p.FaultsTo t) (hp : s.FaultFrame p) : s.FaultsTo t := by
  obtain ⟨u, k, info, hu, e⟩ := h
  exact ⟨u, k, info,
    ⟨hu.pmem.trans hp.pmem, hu.pos.trans hp.pos, hu.len.trans hp.len, hu.txoff.trans hp.txoff, hu.ctl.trans hp.ctl,
      hp.trace.trans hu.trace⟩, e⟩

theorem faultCodeOf_mem (k : FaultKind) : faultCodeOf k ∈ [1#4, 2#4, 3#4, 4#4, 5#4] := by
  cases k <;> decide

section
variable {s t : State}

/-- CONFIGURE (R102). -/
theorem State.doConfigure_faultsTo (s : State) {div : BitVec 8} (hf : s.faulted = false)
    (ht : (s.doConfigure div).faulted = true) : s.FaultsTo (s.doConfigure div) := by
  rcases s.doConfigure_cases div with ⟨info, e⟩ | ⟨-, e⟩ <;> rw [e] at ht ⊢
  · exact ⟨s, _, info, {}, rfl⟩
  · simp [hf] at ht

/-- The end of a PB_STEP (R111, R166). -/
theorem State.afterLatch_faultsTo (hf : s.faulted = false) (ht : s.afterLatch.faulted = true) :
    s.FaultsTo s.afterLatch := by
  rcases s.afterLatch_results with ⟨-, e⟩ | ⟨-, e | e | ⟨k, info, e⟩⟩ <;> rw [e] at ht ⊢
  case inr.inr.inr => exact ⟨s, k, info, {}, rfl⟩
  all_goals simp [hf] at ht

/-- SHOW's acceptance (R103): a frame that starts takes no fault. -/
theorem State.Inv.accept_faultsTo (hs : s.Inv) {h : Nat} (hf : s.faulted = false) (ht : (s.accept h).faulted = true) :
    s.FaultsTo (s.accept h) := by
  rcases s.accept_cases h with e | ⟨hlive, hi, -, base, len, -, e⟩
  · simp [e, hf] at ht
  · rcases s.acceptShow_cases h base len with ⟨-, e'⟩ | ⟨-, -, e'⟩ | ⟨-, -, e'⟩ <;> rw [e, e'] at ht ⊢
    · exact ⟨_, _, _, {}, rfl⟩
    · exact ⟨_, _, _, {}, rfl⟩
    · have hrun := State.startFrame_run (s := { s with lock := .held h }.setHstate h .showActive) hs.sized
        (hs.idleOff hi).1 (s.live_iff.1 hlive).2 base len
      rw [hrun] at ht
      simp [hf] at ht

/-- The playback step (R162). -/
theorem State.take_play_faultsTo (hf : s.faulted = false) (ht : s.take .play = .next t) (hft : t.faulted = true) :
    s.FaultsTo t := by
  rcases s.take_play_cases with ⟨-, e⟩ | ⟨-, -, e⟩ | ⟨-, -, -, e⟩ | ⟨-, -, -, e⟩ <;>
    obtain rfl := Host.Outcome.next.inj (e.symm.trans ht)
  case inr.inr.inr =>
    refine (State.afterLatch_faultsTo (s := ((s.emit _ _).emit _ _).latchNext) hf hft).after ?_
    rw [State.emit_emit_latchNext]
    exact { trace := ⟨_, rfl⟩ }
  all_goals simp [hf] at hft

/-- A choice of the spec's own that leaves a machine faulted which was not has raised the fault. -/
theorem State.Inv.take_faultsTo (hs : s.Inv) {c : Choice} (hc : c.own = true) (hf : s.faulted = false)
    (ht : s.take c = .next t) (hft : t.faulted = true) : s.FaultsTo t := by
  cases c with
  | issue who words ok =>
    cases who with
    | host h =>
      rcases State.take_issue_host_cases ht with rfl | rfl | ⟨-, -, div, rfl⟩ | ⟨-, base, len, -, rfl⟩ | ⟨-, rfl⟩
      case inr.inr.inl =>
        exact (State.doConfigure_faultsTo { s with issuer := .host h, installOk := ok } hf hft).after {}
      all_goals simp [hf] at hft
    | ctl | rfl | thr => cases hc
  | memWrite h a b => rcases State.take_memWrite_cases ht with rfl | ⟨-, -, -, rfl⟩ <;> simp [hf] at hft
  | accept h =>
    obtain rfl := Host.Outcome.next.inj ht
    exact hs.accept_faultsTo hf hft
  | complete =>
    obtain rfl := Host.Outcome.next.inj ht
    rcases s.complete_cases with e | ⟨-, -, -, ⟨h, -, e⟩ | ⟨-, e⟩⟩ <;> simp [e, hf] at hft
  | refill =>
    rcases State.take_refill_cases ht with ⟨-, rfl⟩ | ⟨hr, bs, -, rfl⟩
    · simp [hf] at hft
    · obtain ⟨-, hlive⟩ := State.refillWith_thrPending_live { s with issuer := .thr } bs
      obtain ⟨hno, -⟩ := (State.live_iff _).1 (hlive.trans (s.canRefill_iff.1 hr).1)
      simp [hno] at hft
  | play => exact State.take_play_faultsTo hf ht hft
  | reset =>
    obtain rfl := Host.Outcome.next.inj ht
    cases hft

/-- A step from a state of the invariant that leaves a machine faulted which was not has raised the fault. -/
theorem State.Inv.step_faultsTo (hs : s.Inv) (hf : s.faulted = false) (ht : step s = .next t) (hft : t.faulted = true) :
    s.FaultsTo t := by
  rcases step_next_cases ht with ⟨c, rest, hag, hc⟩ | ⟨-, ⟨c, hown, hc⟩ | rfl⟩
  · obtain ⟨hown, hrest⟩ : c.own = true ∧ ∀ d ∈ rest, d.own = true := by simpa [hag] using hs.agendaOwn
    exact ((hs.setAgenda hrest).take_faultsTo hown hf hc hft).after {}
  · exact ((hs.setDraws (s.draws + 1)).take_faultsTo hown hf hc hft).after {}
  · simp [hf] at hft

end

/-! ## The obligations -/

/-- Settles O34: each choice but reset needs a live machine for its step. -/
theorem haltedMachineHolds : Obligations.HaltedMachineHolds := by
  intro s c rest hlive hag hreset
  rw [step_of_agenda_cons hag]
  exact State.take_of_not_live (s := { s with agenda := rest }) hlive hreset

/-- Settles O35: the step ends with `raise Fault`. -/
theorem faultEntry : Obligations.FaultEntry := by
  intro s t hs hf ht hft
  obtain ⟨u, k, info, hu, rfl⟩ := hs.step_faultsTo hf ht hft
  exact ⟨faultCodeOf_mem k, rfl, rfl, rfl, rfl, hu.pmem, hu.pos, hu.len, hu.txoff, hu.ctl, hu.trace⟩

end Sys2Proof.Machine
end

section
/-! SUPPORT. Reset and what it leaves (R230, R231), the configuration that only reset undoes (R239), and the deadline of a
refill (R234). The obligations about them. -/

namespace Sys2Proof.Machine

/-! ## CONF changes once (R239) -/

/-- From `s` to `t` the configuration register CONF keeps its fields (R32). -/
structure State.SameConf (s t : State) : Prop where
  cfgValid : t.cfgValid = s.cfgValid := by rfl
  div : t.div = s.div := by rfl

theorem State.SameConf.trans {s t u : State} (h : s.SameConf t) (h' : t.SameConf u) : s.SameConf u :=
  ⟨h'.cfgValid.trans h.cfgValid, h'.div.trans h.div⟩

theorem State.startPlayback_sameConf (s : State) : s.SameConf s.startPlayback := by
  unfold State.startPlayback
  split <;> exact {}

theorem State.writeBlock_sameConf (s : State) (wait : Bool) (entries : List Word) :
    s.SameConf (s.writeBlock wait entries) := by
  have hp : s.SameConf ({ s with pmem := s.pmem.writeMany 0 entries } : State).startPlayback :=
    .trans {} (State.startPlayback_sameConf _)
  cases hr : s.pbRun with
  | true =>
    rw [State.writeBlock_of_pbRun hr]
    exact {}
  | false =>
    rw [State.writeBlock_of_not_pbRun hr]
    cases wait with
    | true => exact hp.trans {}
    | false => exact hp

theorem State.startFrame_sameConf (s : State) (base len : Word) : s.SameConf (s.startFrame base len) := by
  have hw := State.writeBlock_sameConf
    ({ s with bufBase := base, bufLen := len, pos := 0#32, len := len, txoff := 0 } : State).hook false (latchBlock s.par)
  simp only [State.startFrame]
  split
  · exact .trans {} hw
  · exact .trans {} (hw.trans {})

theorem State.accept_sameConf (s : State) (h : Nat) : s.SameConf (s.accept h) := by
  rcases s.accept_cases h with e | ⟨-, -, -, base, len, -, e⟩ <;> rw [e]
  · exact {}
  · rcases s.acceptShow_cases h base len with ⟨-, e'⟩ | ⟨-, -, e'⟩ | ⟨-, -, e'⟩ <;> rw [e']
    · exact {}
    · exact {}
    · exact .trans {} (State.startFrame_sameConf _ base len)

theorem State.complete_sameConf (s : State) : s.SameConf s.complete := by
  rcases s.complete_cases with e | ⟨-, -, -, ⟨h, -, e⟩ | ⟨-, e⟩⟩ <;> rw [e] <;> exact {}

theorem State.refillWith_sameConf (s : State) (bs : List Byte) : s.SameConf (s.refillWith bs) := by
  unfold State.refillWith
  split
  · exact {}
  · split <;> exact {}

theorem State.afterLatch_sameConf (s : State) : s.SameConf s.afterLatch := by
  rcases s.afterLatch_results with ⟨-, e⟩ | ⟨-, e | e | ⟨k, info, e⟩⟩ <;> rw [e] <;> exact {}

/-- A transaction in a configured machine leaves CONF alone: a second CONFIGURE is refused (R90). -/
theorem State.TxnEffect.sameConf {s t : State} (h : s.TxnEffect t) (hcfg : s.cfgValid = true) : s.SameConf t := by
  cases h with
  | configure _ _ hno => simp [hno] at hcfg
  | writeBlock => exact s.writeBlock_sameConf _ _
  | refill => exact s.refillWith_sameConf _
  | hold | refuse | request | status | waitDone | hook | unhook | memWrite => exact {}

/-- In a configured machine no choice but reset writes CONF. -/
theorem State.take_sameConf {s t : State} {c : Choice} (hreset : c ≠ .reset) (hcfg : s.cfgValid = true)
    (ht : s.take c = .next t) : s.SameConf t := by
  cases c with
  | issue who words ok => exact .trans {} ((State.take_issue_txnEffect ht).sameConf hcfg)
  | memWrite h a b => rcases State.take_memWrite_cases ht with rfl | ⟨-, -, -, rfl⟩ <;> exact {}
  | accept h =>
    obtain rfl := Host.Outcome.next.inj ht
    exact s.accept_sameConf h
  | complete =>
    obtain rfl := Host.Outcome.next.inj ht
    exact s.complete_sameConf
  | refill =>
    rcases State.take_refill_cases ht with ⟨-, rfl⟩ | ⟨-, bs, -, rfl⟩
    · exact {}
    · exact .trans {} (State.refillWith_sameConf _ bs)
  | play =>
    rcases s.take_play_cases with ⟨-, e⟩ | ⟨-, -, e⟩ | ⟨-, -, -, e⟩ | ⟨-, -, -, e⟩ <;>
      obtain rfl := Host.Outcome.next.inj (e.symm.trans ht)
    case inr.inr.inr => exact .trans {} (State.afterLatch_sameConf _)
    all_goals exact {}
  | reset => exact absurd rfl hreset

/-! ## An event that is not served (R234) -/

/-- The playback step on a latched entry of class PAIR (R162). -/
theorem State.take_play_of_isPairEntry {s : State} (hp : s.canPlay = true) (hcur : isPairEntry s.cur) :
    s.take .play = .next s.advanced.afterLatch := by
  rcases s.take_play_cases with ⟨hno, -⟩ | ⟨-, h0, -⟩ | ⟨-, -, h1, -⟩ | ⟨-, -, -, e⟩
  · simp [hp] at hno
  · exact absurd h0 hcur.1
  · exact absurd h1 hcur.2
  · rw [e, State.emit_emit_latchNext]
    rfl

/-- `k` playback steps after the half boundary at `b`, whose event is still pending: all of PMEM are pairs, and the limit
allows the longest entries up to the next boundary (R166, R234). -/
structure State.Unserved (p : Params) (b k : Nat) (s : State) : Prop where
  par : s.par = p
  live : s.live = true
  pbRun : s.pbRun = true
  hooked : s.rflEn = true
  pending : s.thrPending = true
  cur : isPairEntry s.cur
  entries : ∀ i, isPairEntry (s.pmem.read i)
  rp : s.rp = (b + k) % p.nMem
  time : s.elapsed + (p.half - k) * 65534 ≤ p.waitTimeout

section
variable {p : Params} {b k : Nat} {s : State} (hs : s.Unserved p b k)
include hs

theorem State.Unserved.setAgenda (agenda : List Choice) : ({ s with agenda := agenda } : State).Unserved p b k :=
  { hs with }

theorem State.Unserved.take_play : s.take .play = .next s.advanced.afterLatch :=
  State.take_play_of_isPairEntry (s.canPlay_iff.2 ⟨hs.live, hs.pbRun⟩) hs.cur

theorem State.Unserved.advanced_rp : s.advanced.rp = (b + (k + 1)) % p.nMem := by
  have h : s.advanced.rp = (s.rp + 1) % s.par.nMem := rfl
  rw [h, hs.par, hs.rp, Nat.mod_add_mod, Nat.add_assoc]

variable (hp : p.wf = true) (hb : p.half ∣ b)
include hp hb

/-- The next boundary is H steps after the last (R166). -/
theorem State.Unserved.advanced_raisesThr_iff : s.advanced.raisesThr ↔ p.half ∣ k + 1 := by
  have hpar : s.advanced.par = p := hs.par
  have hen : s.advanced.rflEn = true := hs.hooked
  rw [State.raisesThr, hs.advanced_rp, hpar, hen, ← Nat.dvd_add_right hb]
  simpa using mod_eq_zero_or_half_iff (Params.wf_half hp).1 (b + (k + 1))

/-- Before that boundary a playback step raises no event and is within the limit. -/
theorem State.Unserved.take_play_goes_on (hk : k + 1 < p.half) :
    s.take .play = .next s.advanced ∧ s.advanced.Unserved p b (k + 1) := by
  have helapsed : s.advanced.elapsed = s.elapsed + (entryDur0 s.cur).toNat + (entryDur1 s.cur).toNat := rfl
  have htime : s.advanced.elapsed + (p.half - (k + 1)) * 65534 ≤ p.waitTimeout := by
    have h0 := (entryDur0 s.cur).isLt
    have h1 := (entryDur1 s.cur).isLt
    have hlimit := hs.time
    omega
  have hpairs : isPairEntry s.advanced.cur := hs.entries _
  have hthr : ¬s.advanced.raisesThr := by
    rw [hs.advanced_raisesThr_iff hp hb]
    exact Nat.not_dvd_of_pos_of_lt k.succ_pos hk
  have hover : ¬s.advanced.overTime := by
    rintro ⟨-, -, hlt⟩
    rw [show s.advanced.par = p from hs.par] at hlt
    omega
  have hlatch : s.advanced.afterLatch = s.advanced := by
    rw [State.afterLatch_of_not_raisesThr hpairs.1 (s.live_iff.1 hs.live).1 hthr, State.timeoutCheck_of_not_overTime hover]
  exact ⟨hlatch ▸ hs.take_play,
    { hs with cur := hpairs, rp := hs.advanced_rp, time := htime }⟩

/-- At that boundary it raises another event, which is Underrun (R166, R204). -/
theorem State.Unserved.take_play_underruns (hk : k + 1 = p.half) :
    s.take .play = .next (s.advanced.raised 4#4 (BitVec.ofNat 32 ((b + p.half) % p.nMem))) := by
  have hpairs : isPairEntry s.advanced.cur := hs.entries _
  have hthr : s.advanced.raisesThr := (hs.advanced_raisesThr_iff hp hb).2 (dvd_of_eq hk.symm)
  rw [hs.take_play, State.afterLatch_of_underrun hpairs.1 hthr hs.pending, hs.advanced_rp, hk]

/-- As long as the boundary is not reached, playback steps run without a fault. -/
theorem State.Unserved.run_plays {j : Nat} {rest : List Choice} (hj : k + j < p.half)
    (hag : s.agenda = List.replicate j .play ++ rest) :
    ∃ t, Host.Core.run Sys2Proof.core j s = .next t ∧ t.Unserved p b (k + j) ∧ t.agenda = rest := by
  induction j generalizing k s with
  | zero => exact ⟨s, rfl, hs, hag⟩
  | succ j ih =>
    obtain ⟨hplay, hnext⟩ := (hs.setAgenda (List.replicate j .play ++ rest)).take_play_goes_on hp hb (by omega)
    obtain ⟨hstep, hagu⟩ := step_of_take hag rfl hplay
    obtain ⟨t, ht, hun, hrest⟩ := ih hnext (by omega) hagu
    exact ⟨t, (run_succ_of_step hstep j).trans ht, by rwa [Nat.add_right_comm, Nat.add_assoc] at hun, hrest⟩

end

/-- The boundary after RP = 0 is at H, the one after RP = H at 0 (R166). -/
theorem boundary_add_half_mod {p : Params} (hp : p.wf = true) {b : Nat} (hb : b = 0 ∨ b = p.half) :
    (b + p.half) % p.nMem = if b = 0 then p.half else 0 := by
  obtain ⟨hhalf, hcap, hpos⟩ := Params.wf_half hp
  rcases hb with rfl | rfl
  · rw [if_pos rfl, Nat.zero_add, Nat.mod_eq_of_lt (by omega)]
  · rw [if_neg (by omega), ← Nat.two_mul, hhalf, Nat.mod_self]

/-! ## The obligations -/

/-- Settles O38: whoever issues it, a second CONFIGURE is refused, and nothing else writes CONF. -/
theorem configurationIsStable : Obligations.ConfigurationIsStable := by
  intro s t c rest hag hreset ht hcfg
  rw [step_of_agenda_cons hag] at ht
  have hconf := State.take_sameConf (s := { s with agenda := rest }) hreset hcfg ht
  exact ⟨hconf.cfgValid.trans hcfg, hconf.div⟩

/-- Settles O46: up to the next boundary the event stays pending and nothing else can fault; there the next event is
Underrun. -/
theorem refillDeadline : Obligations.RefillDeadline := by
  intro s rest hsized hlive hrun hen hpend hrp h0 h1 hpairs htime hag
  obtain ⟨hhalf, hcap, hpos⟩ := Params.wf_half hsized.1
  have hb : s.par.half ∣ s.rp := by
    rcases hrp with h | h
    · exact h ▸ dvd_zero _
    · exact dvd_of_eq h.symm
  have hs : s.Unserved s.par s.rp 0 :=
    ⟨rfl, hlive, hrun, hen, hpend, ⟨h0, h1⟩, hpairs, (Nat.mod_eq_of_lt (by omega)).symm, htime⟩
  have hlast : s.par.half - 1 + 1 = s.par.half := by omega
  have hplays : List.replicate (s.par.half - 1 + 1) Choice.play = _ ++ [.play] := List.replicate_succ'
  rw [hlast] at hplays
  rw [hplays, List.append_assoc] at hag
  obtain ⟨t, ht, hun, hagt⟩ := hs.run_plays hsized.1 hb (by omega) hag
  have hfault := (hun.setAgenda rest).take_play_underruns hsized.1 hb (by omega)
  have hall := (run_add_of_run ht 1).trans (run_succ_of_step (step_of_take hagt rfl hfault).1 0)
  rw [hlast] at hall
  exact ⟨t, _, ht, hun.live, hun.pbRun, hall, rfl, rfl,
    congrArg (BitVec.ofNat 32) (boundary_add_half_mod hsized.1 hrp)⟩

/-- Settles O32: the reset choice's step is R230's, whatever the state. -/
theorem resetEventStep : Obligations.ResetEventStep := fun _ _ hag => step_of_agenda_cons hag

/-- Settles O33: nothing runs or waits, no host has a request, and no event is pending, so that none of these agents'
steps is enabled (R103, R105, R140, R161). -/
theorem afterResetOnlyHostsStep : Obligations.AfterResetOnlyHostsStep := by
  intro par sys draws rest
  have hstep (c : Choice) : step (State.powerOn par sys (c :: rest) draws) = (State.powerOn par sys rest draws).take c :=
    step_of_agenda_cons rfl
  refine ⟨fun c hc => ?_, ?_, rfl⟩ <;> rw [hstep]
  · rcases hc with rfl | rfl | ⟨h, rfl⟩
    · exact State.take_play_of_not_canPlay rfl
    · exact congrArg _ (if_neg (by simp [State.powerOn]))
    · rcases State.accept_cases (State.powerOn par sys rest draws) h with e | ⟨-, -, -, base, len, hreq, -⟩
      · exact congrArg _ e
      · simp [State.hstateAt, State.powerOn, List.getElem?_replicate] at hreq
  · exact exec_refill_of_not_canRefill (s := { State.powerOn par sys rest draws with issuer := .thr }) rfl rfl

end Sys2Proof.Machine
end

section
/-! SUPPORT. The rejects of the transaction decoder as equations of the header's and the argument word's fields (R87,
R89, R90), and the obligation about the words of the spec's encodings (V10 to V23e, P1). -/

namespace Sys2Proof.Machine

/-- A header whose code is not reserved hands its arguments on if its reserved bits are 0 (R87, R90). -/
theorem decodeTxn_mkHdr {op : BitVec 4} (hop : op ∈ [0x1#4, 0x2#4, 0x3#4, 0x9#4, 0xA#4, 0xB#4, 0xC#4, 0xD#4, 0xE#4])
    (upper : BitVec 28) (args : List Word) :
    decodeTxn (mkHdr upper op :: args) = if upper = 0#28 then decodeArgs op args else .error .headerReserved := by
  simp only [List.mem_cons, List.not_mem_nil, or_false] at hop
  rcases hop with rfl | rfl | rfl | rfl | rfl | rfl | rfl | rfl | rfl <;> simp [decodeTxn]

/-- CONFIGURE's words with a reserved bit of its argument set (R89, R90). -/
theorem decodeTxn_configure_argReserved {a : Word} (ha : a.extractLsb' 8 24 ≠ 0#24) (args : List Word) :
    decodeTxn (mkHdr 0#28 0x1#4 :: a :: args) = .error .argReserved := by
  rw [decodeTxn_mkHdr (by decide), if_pos rfl, decodeArgs_configure, if_neg ha]

/-- Settles O5: the words are the encodings of the well-formed instructions they stand for, and decoding inverts
encoding; the last two have a reserved bit set, one in the header, one in CONFIGURE's argument. -/
theorem specWordsDecode : Obligations.SpecWordsDecode :=
  ⟨decodeEntry_of_encode (i := .term) rfl rfl rfl, decodeEntry_of_encode (i := .bit0) rfl rfl rfl,
    decodeEntry_of_encode (i := .bit1) rfl rfl rfl, decodeEntry_of_encode (i := .latch) rfl rfl rfl,
    decodeEntry_of_encode (i := .end0 false 32767#15 false) rfl rfl rfl,
    decodeEntry_of_encode (i := .end1 true 9#15 true) rfl rfl rfl,
    decodeEntry_of_encode (i := .pair true 1#15 true 1#15) rfl rfl rfl,
    decodeTxn_encode (i := .configure 8#8) rfl rfl [],
    decodeTxn_encode (i := .showFrame 0x1000#32 3#32) rfl rfl [],
    decodeTxn_encode (i := .memWrite 0x20#16 0#32) rfl rfl [],
    decodeTxn_mkHdr (op := 0x1#4) (by decide) 1#28 [0x8#32],
    decodeTxn_configure_argReserved (a := 0x108#32) (by decide) []⟩

end Sys2Proof.Machine
end
